-- ==== Sys2Proof/Word.lean ====
section
/-! DEFINITION. The word, byte and coefficient types of DVCORE-1, and the fixed ring parameters
(00_scope.md R8, R13, R16; 10_state.md R22, R24, R27). -/

namespace Sys2Proof

/-- A byte: "an 8-bit unsigned integer" (00_scope.md R13). -/
abbrev Byte := BitVec 8

/-- A 32-bit word of the host port (20_memory.md R51). -/
abbrev Word := BitVec 32

/-- A stored polynomial coefficient: 12 bits (10_state.md R27). -/
abbrev Coeff := BitVec 12

/-- A 16-byte block `B[0..15]`; matrix element `s[r][c]` is `B[r + 4c]` (00_scope.md R14, 10_state.md R22). -/
abbrev Block := Vector Byte 16

/-- A 256-bit message or digest: 32 bytes (10_state.md R28, R29). -/
abbrev Bytes32 := Vector Byte 32

/-- A key schedule: 11 round keys (10_state.md R24). -/
abbrev Schedule := Vector Block 11

/-- A polynomial: 256 coefficients, index j the coefficient of x^j (00_scope.md R16). -/
abbrev Poly := Vector Coeff 256

/-- The ring dimension N (00_scope.md R8). -/
abbrev ringN : Nat := 256

/-- The modulus Q (00_scope.md R8). -/
abbrev ringQ : Nat := 3329

end Sys2Proof
end

