-- ==== Sys2Proof/Syntax.lean ====
section
/-! DEFINITION. The 28 commands: one constructor per row of spec/opcode_table.json, with the operand
fields of 30_encoding.md R81. -/

namespace Sys2Proof

/-- A polynomial register number, P0..P15 (30_encoding.md R81: RD, RA, RB, RP; all 16 values legal). -/
abbrev PReg := Fin 16

/-- The selector SEL of KHASH and SS2KEY (30_encoding.md R81). -/
inductive Side
  /-- SEL = 0: message M, secret SSE. -/
  | encapsulation
  /-- SEL = 1: message MP, secret SSD. -/
  | decapsulation
  deriving DecidableEq, Repr

/-- The commands, in the order of the opcode map (30_encoding.md R83). -/
inductive Instr
  | nop
  | clrerr
  | keyexp
  | ark (ridx : BitVec 4)
  | subb
  | isubb
  | shrow
  | ishrow
  | mixc
  | imixc
  | enc
  | dec
  | gfmul (a b : Byte)
  | sbox (a : Byte)
  | isbox (a : Byte)
  | padd (rd ra rb : PReg)
  | psub (rd ra rb : PReg)
  | pmul (rd ra rb : PReg)
  | psampu (rp : PReg)
  | psampn (rp : PReg)
  | msamp
  | penc (rp : PReg)
  | pdec (rp : PReg)
  | khash (sel : Side) (ra rb : PReg)
  | keygen
  | encaps
  | decaps
  | ss2key (sel : Side)
  deriving DecidableEq, Repr

end Sys2Proof
end

