-- ==== Sys2Proof/WellFormed.lean ====
section
/-! DEFINITION. Which terms of `Instr` are commands: the only operand field with an illegal value is the
round index of ARK (30_encoding.md R81, R84). -/

namespace Sys2Proof

/-- RIDX names a round key exactly when it is 0..10 (30_encoding.md R81). -/
abbrev RoundIndexLegal (ridx : BitVec 4) : Prop := ridx.toNat ≤ 10

/-- A command of the opcode map; every field but RIDX is legal at all its values. -/
def Instr.wellFormed (i : Instr) : Bool :=
  match i with
  | .ark ridx => decide (RoundIndexLegal ridx)
  | .nop | .clrerr | .keyexp | .subb | .isubb | .shrow | .ishrow | .mixc | .imixc | .enc | .dec => true
  | .gfmul _ _ | .sbox _ | .isbox _ => true
  | .padd _ _ _ | .psub _ _ _ | .pmul _ _ _ | .psampu _ | .psampn _ | .msamp | .penc _ | .pdec _ => true
  | .khash _ _ _ | .keygen | .encaps | .decaps | .ss2key _ => true

/-- The well-formedness of an instruction as a proposition. -/
abbrev WellFormed (i : Instr) : Prop := i.wellFormed = true

end Sys2Proof
end

