-- ==== Sys2Proof/Decode.lean ====
section
/-! DEFINITION. Decoding of 32-bit command words, and the encoder (30_encoding.md R80 to R86). The
decoder is the table of R83 searched as the pseudocode of R84 says. -/

namespace Sys2Proof

/-- An unsigned operand field of a command word, `w[start + len - 1 : start]` (30_encoding.md R82). -/
def field (w : Word) (start len : Nat) : Nat := w.toNat / 2 ^ start % 2 ^ len

/-- IMMA = w[15:8] (30_encoding.md R81). -/
def fieldImmA (w : Word) : Byte := BitVec.ofNat 8 (field w 8 8)

/-- IMMB = w[23:16] (30_encoding.md R81). -/
def fieldImmB (w : Word) : Byte := BitVec.ofNat 8 (field w 16 8)

/-- RIDX = w[11:8] (30_encoding.md R81). -/
def fieldRidx (w : Word) : BitVec 4 := BitVec.ofNat 4 (field w 8 4)

/-- RD, and RP, = w[11:8] (30_encoding.md R81). -/
def fieldRd (w : Word) : PReg := Fin.ofNat 16 (field w 8 4)

/-- RA = w[15:12] (30_encoding.md R81). -/
def fieldRa (w : Word) : PReg := Fin.ofNat 16 (field w 12 4)

/-- RB = w[19:16] (30_encoding.md R81). -/
def fieldRb (w : Word) : PReg := Fin.ofNat 16 (field w 16 4)

/-- SEL = w[8] (30_encoding.md R81). -/
def fieldSel (w : Word) : Side := if field w 8 1 = 0 then .encapsulation else .decapsulation

/-- One row of the opcode map: the row selects a word w when `w & mask = pattern`, and `command` reads the
row's command with its operand fields (30_encoding.md R83). -/
structure OpcodeRow where
  pattern : Word
  mask : Word
  command : Word → Instr

/-- The rows with numbers 0x0_ (system) (30_encoding.md R83). -/
def rowsSystem : List OpcodeRow :=
  [ ⟨0x00000000#32, 0xFFFFFFFF#32, fun _ => .nop⟩,
    ⟨0x00000001#32, 0xFFFFFFFF#32, fun _ => .clrerr⟩ ]

/-- The rows with numbers 0x1_ (AES) (30_encoding.md R83). -/
def rowsAes : List OpcodeRow :=
  [ ⟨0x00000010#32, 0xFFFFFFFF#32, fun _ => .keyexp⟩,
    ⟨0x00000011#32, 0xFFFFF0FF#32, fun w => .ark (fieldRidx w)⟩,
    ⟨0x00000012#32, 0xFFFFFFFF#32, fun _ => .subb⟩,
    ⟨0x00000013#32, 0xFFFFFFFF#32, fun _ => .isubb⟩,
    ⟨0x00000014#32, 0xFFFFFFFF#32, fun _ => .shrow⟩,
    ⟨0x00000015#32, 0xFFFFFFFF#32, fun _ => .ishrow⟩,
    ⟨0x00000016#32, 0xFFFFFFFF#32, fun _ => .mixc⟩,
    ⟨0x00000017#32, 0xFFFFFFFF#32, fun _ => .imixc⟩,
    ⟨0x00000018#32, 0xFFFFFFFF#32, fun _ => .enc⟩,
    ⟨0x00000019#32, 0xFFFFFFFF#32, fun _ => .dec⟩ ]

/-- The rows with numbers 0x2_ (field and tables) (30_encoding.md R83). -/
def rowsField : List OpcodeRow :=
  [ ⟨0x00000020#32, 0xFF0000FF#32, fun w => .gfmul (fieldImmA w) (fieldImmB w)⟩,
    ⟨0x00000021#32, 0xFFFF00FF#32, fun w => .sbox (fieldImmA w)⟩,
    ⟨0x00000022#32, 0xFFFF00FF#32, fun w => .isbox (fieldImmA w)⟩ ]

/-- The rows with numbers 0x3_ (polynomial ring, sampler, KHASH) (30_encoding.md R83). -/
def rowsRing : List OpcodeRow :=
  [ ⟨0x00000030#32, 0xFFF000FF#32, fun w => .padd (fieldRd w) (fieldRa w) (fieldRb w)⟩,
    ⟨0x00000031#32, 0xFFF000FF#32, fun w => .psub (fieldRd w) (fieldRa w) (fieldRb w)⟩,
    ⟨0x00000032#32, 0xFFF000FF#32, fun w => .pmul (fieldRd w) (fieldRa w) (fieldRb w)⟩,
    ⟨0x00000033#32, 0xFFFFF0FF#32, fun w => .psampu (fieldRd w)⟩,
    ⟨0x00000034#32, 0xFFFFF0FF#32, fun w => .psampn (fieldRd w)⟩,
    ⟨0x00000035#32, 0xFFFFFFFF#32, fun _ => .msamp⟩,
    ⟨0x00000036#32, 0xFFFFF0FF#32, fun w => .penc (fieldRd w)⟩,
    ⟨0x00000037#32, 0xFFFFF0FF#32, fun w => .pdec (fieldRd w)⟩,
    ⟨0x00000038#32, 0xFFF00EFF#32, fun w => .khash (fieldSel w) (fieldRa w) (fieldRb w)⟩ ]

/-- The rows with numbers 0x4_ (KEM) (30_encoding.md R83). -/
def rowsKem : List OpcodeRow :=
  [ ⟨0x00000040#32, 0xFFFFFFFF#32, fun _ => .keygen⟩,
    ⟨0x00000041#32, 0xFFFFFFFF#32, fun _ => .encaps⟩,
    ⟨0x00000042#32, 0xFFFFFFFF#32, fun _ => .decaps⟩,
    ⟨0x00000043#32, 0xFFFFFEFF#32, fun w => .ss2key (fieldSel w)⟩ ]

/-- The opcode map: 28 rows (30_encoding.md R83). -/
def opcodeMap : List OpcodeRow := rowsSystem ++ rowsAes ++ rowsField ++ rowsRing ++ rowsKem

/-- "w & mask = match" for a row of the opcode map (30_encoding.md R83). -/
def rowMatches (w : Word) (row : OpcodeRow) : Bool := w &&& row.mask == row.pattern

/-- Why a word is ILLEGAL: the three events of 60_exceptions.md R243; the hardware records the same code for
all of them. -/
inductive IllegalWord
  /-- "a word whose OPC is not one of the 28 listed" (30_encoding.md R84). -/
  | unknownOpcode
  /-- "a word with a listed OPC and a 1 in any bit its format reserves" (30_encoding.md R84). -/
  | reservedBitSet
  /-- "ARK with RIDX in 11..15" (30_encoding.md R84). -/
  | roundIndexAboveTen
  deriving DecidableEq, Repr

/-- What decoding answers: one of the 28 commands with its operand values, or ILLEGAL (30_encoding.md R84). -/
inductive Decoded
  | command (i : Instr)
  | illegal (why : IllegalWord)
  deriving DecidableEq, Repr

/-- Whether the word's opcode, bits 7:0, is one of the 28 listed (30_encoding.md R84). -/
def opcodeListed (w : Word) : Bool := opcodeMap.any fun row => row.pattern &&& 0xFF#32 == w &&& 0xFF#32

/-- Decode(w) (30_encoding.md R84). ARK with RIDX above 10 is the one row whose command can be ill-formed, and
that word is ILLEGAL. -/
def decode (w : Word) : Decoded :=
  match opcodeMap.find? (rowMatches w) with
  | none => .illegal (if opcodeListed w then .reservedBitSet else .unknownOpcode)
  | some row =>
    if (row.command w).wellFormed then .command (row.command w) else .illegal .roundIndexAboveTen

/-- The command of a word, or none when it is ILLEGAL. -/
def Decoded.toOption (d : Decoded) : Option Instr :=
  match d with
  | .command i => some i
  | .illegal _ => none

/-- A word of an opcode and the operand fields above it, each given by its place (30_encoding.md R80). -/
def packFields (opc f8 f12 f16 : Nat) : Word :=
  BitVec.ofNat 32 (opc + f8 * 2 ^ 8 + f12 * 2 ^ 12 + f16 * 2 ^ 16)

/-- The bit of SEL (30_encoding.md R81). -/
def Side.bit (sel : Side) : Nat := if sel = .encapsulation then 0 else 1

/-- The command word of an instruction, from the format table of 30_encoding.md R80 and the opcodes of
R83; a register field occupies four bits, a byte operand eight, SEL one. -/
def encode (i : Instr) : Word :=
  match i with
  | .nop => packFields 0x00 0 0 0
  | .clrerr => packFields 0x01 0 0 0
  | .keyexp => packFields 0x10 0 0 0
  | .ark ridx => packFields 0x11 ridx.toNat 0 0
  | .subb => packFields 0x12 0 0 0
  | .isubb => packFields 0x13 0 0 0
  | .shrow => packFields 0x14 0 0 0
  | .ishrow => packFields 0x15 0 0 0
  | .mixc => packFields 0x16 0 0 0
  | .imixc => packFields 0x17 0 0 0
  | .enc => packFields 0x18 0 0 0
  | .dec => packFields 0x19 0 0 0
  | .gfmul a b => packFields 0x20 a.toNat 0 b.toNat
  | .sbox a => packFields 0x21 a.toNat 0 0
  | .isbox a => packFields 0x22 a.toNat 0 0
  | .padd rd ra rb => packFields 0x30 rd.val ra.val rb.val
  | .psub rd ra rb => packFields 0x31 rd.val ra.val rb.val
  | .pmul rd ra rb => packFields 0x32 rd.val ra.val rb.val
  | .psampu rp => packFields 0x33 rp.val 0 0
  | .psampn rp => packFields 0x34 rp.val 0 0
  | .msamp => packFields 0x35 0 0 0
  | .penc rp => packFields 0x36 rp.val 0 0
  | .pdec rp => packFields 0x37 rp.val 0 0
  | .khash sel ra rb => packFields 0x38 sel.bit ra.val rb.val
  | .keygen => packFields 0x40 0 0 0
  | .encaps => packFields 0x41 0 0 0
  | .decaps => packFields 0x42 0 0 0
  | .ss2key sel => packFields 0x43 sel.bit 0 0

/-- The instruction the decoder reads from a command word given as a number, bit 0 the least significant;
a command is one 32-bit word, so bits above `nbits` are 0 (30_encoding.md R80). -/
def decodeTableWord (nbits w : Nat) : Option Instr := (decode (BitVec.ofNat 32 (w % 2 ^ nbits))).toOption

end Sys2Proof
end

