-- ==== Sys2Proof/Config.lean ====
section
/-! DEFINITION. What one build of the hardware or its surroundings fixes and the spec leaves free: the
arguments of the model (00_scope.md R9). Every value here is opaque; the derived ones only force the
constraints the table of R9 states, and every table R9 allows is reached (log entries 4, 6, 7, 15). -/

namespace Sys2Proof.Config

/-- Free: the build's choice behind CLAMP. -/
opaque clampRaw : Nat
/-- Free: the build's choice behind CDT, by index. -/
opaque cdtRaw : Nat → Nat
/-- Free: the build's choice behind DEC_T. -/
opaque decTRaw : Nat
/-- Free: the build's choice behind ENC_ONE. -/
opaque encOneRaw : Nat
/-- Free: which multiple of 0x4000 the platform places the window at (20_memory.md R50). -/
opaque baseIndex : Nat
/-- HASH256: an uninterpreted total function from byte sequences to 32-byte digests (46_kem.md R211). -/
opaque hash256 : List Byte → Bytes32
/-- The k-th word the random port delivers when no test bench has fixed it: a draw under no law
(45_sampler.md R190). -/
opaque rndWord : Nat → Word

/-- CLAMP (c): 1 ≤ c ≤ 16 (00_scope.md R9). -/
def clamp : Nat := clampRaw % 16 + 1

/-- CDT[i], forced non-decreasing and at most 65536 as 00_scope.md R9 requires of every table. -/
def cdtAt : Nat → Nat
  | 0 => min (cdtRaw 0) 65536
  | i + 1 => max (cdtAt i) (min (cdtRaw (i + 1)) 65536)

/-- The cumulative noise table CDT[0..c−1] (45_sampler.md R192). -/
def cdt : List Nat := (List.range clamp).map cdtAt

/-- DEC_T, the decision threshold; at most Q − 2 since DEC_T < ENC_ONE < Q (00_scope.md R9). -/
def decT : Nat := decTRaw % (ringQ - 1)

/-- ENC_ONE, the coefficient of a 1 bit: DEC_T < ENC_ONE < Q (00_scope.md R9). -/
def encOne : Nat := decT + 1 + encOneRaw % (ringQ - 1 - decT)

/-- BASE, a multiple of 0x4000 (00_scope.md R9, 20_memory.md R50); no rule depends on its value. -/
def base : Nat := 0x4000 * baseIndex

end Sys2Proof.Config
end

