-- ==== Sys2Proof/Machine/State.lean ====
section
/-! DEFINITION. The architectural state of the engine (10_state.md R20), its value after reset (R34), what
stands at its two ports, and the reasons a step can stop. -/

namespace Sys2Proof.Machine

/-- PHASE of the sequencer (10_state.md R35). -/
inductive Phase
  | idle
  | initial
  | round
  | final
  deriving DecidableEq, Repr

/-- MODE of the sequencer (10_state.md R35). -/
inductive Mode
  | encrypt
  | decrypt
  deriving DecidableEq, Repr

/-- The result codes 0 to 4; "the values 5..15 are never written" (60_exceptions.md R241). -/
inductive ResultCode
  /-- 0: the command completed. -/
  | ok
  /-- 1: a host write of a polynomial word with a half not below Q. -/
  | malformedInput
  /-- 2: the word written to CMD is not one of the 28 commands. -/
  | illegalCmd
  /-- 3: ARK, ENC or DEC issued while KV = 0. -/
  | noSchedule
  /-- 4: a misaligned, outside or unmapped access, or a write to a read-only register. -/
  | badAccess
  deriving DecidableEq, Repr

/-- What can reach the engine from outside (70_reset_and_hazards.md R288): the host's two transactions,
each by the byte offset in the window (20_memory.md R51), and the platform's reset (R270). -/
inductive HostEvent
  | read (off : Nat)
  | write (off : Nat) (v : Word)
  | reset
  deriving DecidableEq, Repr

/-- Why a step can stop. The spec gives every transaction and every command an effect, so there is one
reason only, and no run meets it. -/
inductive Fault
  /-- Raised by a step of the sequencer from a (PHASE, MODE, RND) that the table of 43_aes_engine.md R152 has
  no row for. Safe: the machine stops where the spec gives no step. -/
  | sequencerStuck
  deriving DecidableEq, Repr

/-- Why an instruction can be refused. -/
inductive Refusal
  /-- Raised by the dispatch arm of an instruction without a meaning; every instruction has one, so nothing
  raises it. Safe. -/
  | notModelled (mnemonic : String)
  deriving DecidableEq, Repr

/-- The state of the engine (10_state.md R20), field by field, then the position of the random port's
stream (R37) and the model's own record of what stands at the two ports (log entries 1, 2, 4). -/
structure State where
  /-- ST: the block being transformed (R22). -/
  st : Block
  /-- KEY: the root key (R23). -/
  key : Block
  /-- RK[0..10]: the key schedule (R24). -/
  rk : Schedule
  /-- KV: RK is the expansion of the present KEY (R25). -/
  kv : Bool
  /-- BRES: result of GFMUL, SBOX, ISBOX (R26). -/
  bres : Byte
  /-- M: the message (R28). -/
  m : Bytes32
  /-- MP: the decoded message (R28). -/
  mp : Bytes32
  /-- SSE: the secret computed with M (R29). -/
  sse : Bytes32
  /-- SSD: the secret computed with MP (R29). -/
  ssd : Bytes32
  /-- DMM: the last decode gave MP ≠ M (R30). -/
  dmm : Bool
  /-- P[0..15]: the polynomial registers (R27). -/
  p : Vector Poly 16
  /-- CMD: the last command word written (R32). -/
  cmd : Word
  /-- DONE: the last command completed with result 0 (R30). -/
  done : Bool
  /-- RES: result code of the last command (R31). -/
  res : ResultCode
  /-- FERR: first error code since reset or CLRERR (R31). -/
  ferr : ResultCode
  /-- PHASE of the sequencer (R35). -/
  phase : Phase
  /-- MODE of the sequencer (R35). -/
  mode : Mode
  /-- RND of the sequencer, 0..10 (R35). -/
  rnd : Fin 11
  /-- How many words the random port has delivered (R37 item 1). -/
  rndDrawn : Nat
  /-- The words a test bench has fixed for the port's next draws, next first (45_sampler.md R198). -/
  rndSupplied : List Word
  /-- Host transactions and resets presented and not yet performed, oldest first (20_memory.md R64). -/
  inbox : List HostEvent
  /-- The values the host's reads have returned, oldest first (70_reset_and_hazards.md R287). -/
  replies : List Word
  deriving DecidableEq, Repr

/-- A block of sixteen zero bytes. -/
abbrev zeroBlock : Block := Vector.replicate 16 0#8

/-- Thirty-two zero bytes. -/
abbrev zeroBytes32 : Bytes32 := Vector.replicate 32 0#8

/-- The zero polynomial. -/
abbrev zeroPoly : Poly := Vector.replicate 256 0#12

/-- The state right after reset (10_state.md R34, 70_reset_and_hazards.md R270): every register of R20 zero,
the sequencer idle; at the ports nothing drawn, supplied, presented or returned. -/
def State.reset : State where
  st := zeroBlock
  key := zeroBlock
  rk := Vector.replicate 11 zeroBlock
  kv := false
  bres := 0#8
  m := zeroBytes32
  mp := zeroBytes32
  sse := zeroBytes32
  ssd := zeroBytes32
  dmm := false
  p := Vector.replicate 16 zeroPoly
  cmd := 0#32
  done := false
  res := .ok
  ferr := .ok
  phase := .idle
  mode := .encrypt
  rnd := 0
  rndDrawn := 0
  rndSupplied := []
  inbox := []
  replies := []

end Sys2Proof.Machine
end

