-- ==== Sys2Proof/Machine/Flags.lean ====
section
/-! DEFINITION. The flags: how a command ends (30_encoding.md R88), the one error procedure in its two forms
(60_exceptions.md R242), DMM, and the STATUS word (10_state.md R30, R31). -/

namespace Sys2Proof.Machine

/-- The number of a result code (60_exceptions.md R241). -/
def ResultCode.toBits (c : ResultCode) : BitVec 4 :=
  match c with
  | .ok => 0
  | .malformedInput => 1
  | .illegalCmd => 2
  | .noSchedule => 3
  | .badAccess => 4

/-- "if FERR = 0 then FERR <- code" (60_exceptions.md R242). -/
def firstError (ferr code : ResultCode) : ResultCode := if ferr = .ok then code else ferr

/-- The end of a command that succeeded: RES <- 0; DONE <- 1 (30_encoding.md R88). -/
def State.complete (s : State) : State := { s with res := .ok, done := true }

/-- Err(code) for a command: RES <- code, FERR if it was 0, DONE 0, and nothing else (60_exceptions.md R242). -/
def State.raiseErr (s : State) (code : ResultCode) : State :=
  { s with res := code, ferr := firstError s.ferr code, done := false }

/-- Err(code) for a host access that is not a command: FERR if it was 0, and nothing else
(60_exceptions.md R242). -/
def State.accessErr (s : State) (code : ResultCode) : State := { s with ferr := firstError s.ferr code }

/-- CLRERR's effect: FERR <- 0 (47_system.md R231). -/
def State.clearFerr (s : State) : State := { s with ferr := .ok }

/-- The start of a command: CMD <- w; DONE <- 0 (30_encoding.md R88). -/
def State.beginCommand (s : State) (w : Word) : State := { s with cmd := w, done := false }

/-- DMM after a decode: MP ≠ M over all 32 bytes (10_state.md R30). -/
def decodingMismatch (mp m : Bytes32) : Bool := decide (mp ≠ m)

/-- The STATUS word: DONE bit 0, KV bit 1, DMM bit 2, RES 7:4, FERR 11:8, zero elsewhere (10_state.md R31). -/
def statusWord (s : State) : Word :=
  BitVec.ofNat 32 (s.done.toNat + s.kv.toNat * 2 + s.dmm.toNat * 4 + s.res.toBits.toNat * 2 ^ 4
    + s.ferr.toBits.toNat * 2 ^ 8)

end Sys2Proof.Machine
end

