-- ==== Sys2Proof/Machine/Operands.lean ====
section
/-! DEFINITION. The operand forms: register selection by SEL, and the packing of bytes and coefficients into
32-bit words and into byte sequences (20_memory.md R53, R55; 46_kem.md R210). -/

namespace Sys2Proof.Machine

/-- Byte j of a word, byte 0 in bits 7:0 (20_memory.md R53). -/
def wordByte (v : Word) (j : Nat) : Byte := BitVec.ofNat 8 (v.toNat / 2 ^ (8 * j))

/-- The word of four bytes, the first in bits 7:0 (20_memory.md R53). -/
def wordOfBytes (b0 b1 b2 b3 : Byte) : Word := b3 ++ b2 ++ b1 ++ b0

/-- The word at byte index k of a byte-array register (20_memory.md R53). -/
def loadWord (bytes : List Byte) (k : Nat) : Word :=
  wordOfBytes (bytes.getD k 0) (bytes.getD (k + 1) 0) (bytes.getD (k + 2) 0) (bytes.getD (k + 3) 0)

/-- A byte-array register with bytes k..k+3 replaced by the bytes of v, low byte first (20_memory.md R69). -/
def storeWord {n : Nat} (x : Vector Byte n) (k : Nat) (v : Word) : Vector Byte n :=
  Vector.ofFn fun i : Fin n => if k ≤ i.val ∧ i.val < k + 4 then wordByte v (i.val - k) else x[i]

/-- The low half of a polynomial word, `v[15:0]` (20_memory.md R60). -/
def lowHalf (v : Word) : Nat := v.toNat % 2 ^ 16

/-- The high half of a polynomial word, `v[31:16]` (20_memory.md R60). -/
def highHalf (v : Word) : Nat := v.toNat / 2 ^ 16

/-- A coefficient read by its index, 0 outside the polynomial. -/
def coeffAt (f : Poly) (j : Nat) : Nat := (f.toList.getD j 0).toNat

/-- The word w of a polynomial register: coefficient 2w in the low half, 2w + 1 in the high half
(20_memory.md R55). -/
def loadCoeffs (f : Poly) (w : Nat) : Word :=
  BitVec.ofNat 32 (coeffAt f (2 * w) + coeffAt f (2 * w + 1) * 2 ^ 16)

/-- A polynomial with coefficients 2w and 2w + 1 replaced by the halves of v (20_memory.md R60). -/
def storeCoeffs (f : Poly) (w : Nat) (v : Word) : Poly :=
  Vector.ofFn fun j : Fin 256 =>
    if j.val = 2 * w then BitVec.ofNat 12 (lowHalf v)
    else if j.val = 2 * w + 1 then BitVec.ofNat 12 (highHalf v)
    else f[j]

/-- The message of a side: M for SEL = 0, MP for SEL = 1 (30_encoding.md R81). -/
def State.message (s : State) (sel : Side) : Bytes32 :=
  match sel with
  | .encapsulation => s.m
  | .decapsulation => s.mp

/-- The secret of a side: SSE for SEL = 0, SSD for SEL = 1 (30_encoding.md R81). -/
def State.secret (s : State) (sel : Side) : Bytes32 :=
  match sel with
  | .encapsulation => s.sse
  | .decapsulation => s.ssd

/-- The first sixteen bytes of a secret (46_kem.md R216). -/
def firstBlock (x : Bytes32) : Block := Vector.ofFn fun k : Fin 16 => x[k.val]

/-- Ser(p): coefficient j in bytes 2j and 2j + 1, low byte first (46_kem.md R210). -/
def ser (f : Poly) : List Byte :=
  f.toList.flatMap fun c => [BitVec.ofNat 8 c.toNat, BitVec.ofNat 8 (c.toNat / 2 ^ 8)]

end Sys2Proof.Machine
end

