-- ==== Sys2Proof/Machine/Ops.lean ====
section
/-! DEFINITION. The named writes of the registers of 10_state.md R20, and the random port. Every meaning is
written over these; what clears KV, and what sets DMM, is said here once. This hardware takes no exception
and returns from none (60_exceptions.md R240, R249): what stands in their place is `State.raiseErr`. -/

namespace Sys2Proof.Machine

/-- ST <- b, all sixteen bytes together (41_aes_round.md R120). -/
def State.writeSt (s : State) (b : Block) : State := { s with st := b }

/-- KEY <- b; every write of KEY clears KV (10_state.md R23). -/
def State.writeKey (s : State) (b : Block) : State := { s with key := b, kv := false }

/-- RK <- sched, all 176 bytes together; KV <- 1 (42_key_schedule.md R143). -/
def State.writeSchedule (s : State) (sched : Schedule) : State := { s with rk := sched, kv := true }

/-- BRES <- b (10_state.md R26). -/
def State.writeBres (s : State) (b : Byte) : State := { s with bres := b }

/-- M <- x; DMM keeps its value (20_memory.md R61). -/
def State.writeMessage (s : State) (x : Bytes32) : State := { s with m := x }

/-- MP <- x; DMM <- (MP ≠ M) (44_poly_ring.md R176). -/
def State.writeDecoded (s : State) (x : Bytes32) : State := { s with mp := x, dmm := decodingMismatch x s.m }

/-- SSE <- x for SEL = 0, SSD <- x for SEL = 1; the other keeps its value (46_kem.md R212). -/
def State.writeSecret (s : State) (sel : Side) (x : Bytes32) : State :=
  match sel with
  | .encapsulation => { s with sse := x }
  | .decapsulation => { s with ssd := x }

/-- P[d] <- f (44_poly_ring.md R177). -/
def State.writePoly (s : State) (d : PReg) (f : Poly) : State := { s with p := s.p.set d.val f d.isLt }

/-- (PHASE, MODE, RND) <- (ph, md, r) (43_aes_engine.md R152). -/
def State.setSequencer (s : State) (ph : Phase) (md : Mode) (r : Fin 11) : State :=
  { s with phase := ph, mode := md, rnd := r }

/-- The word the (k+1)-th next draw will deliver: what a test bench has fixed (45_sampler.md R198), else a
word under no law (R190). -/
def State.portWord (s : State) (k : Nat) : Word := s.rndSupplied.getD k (Config.rndWord (s.rndDrawn + k))

/-- The port after n draws: words are consumed strictly in order (45_sampler.md R197). -/
def State.consumeWords (s : State) (n : Nat) : State :=
  { s with rndDrawn := s.rndDrawn + n, rndSupplied := s.rndSupplied.drop n }

/-- A read's value goes to the host (20_memory.md R51). -/
def State.reply (s : State) (v : Word) : State := { s with replies := s.replies ++ [v] }

/-- The oldest transaction is taken off the queue (20_memory.md R64). -/
def State.setInbox (s : State) (rest : List HostEvent) : State := { s with inbox := rest }

/-- The state after a reset event: every register as after reset; the port's stream "is not reset by the
engine's reset" (70_reset_and_hazards.md R270), and what the host has been told or still presents stands. -/
def State.applyReset (s : State) (rest : List HostEvent) : State :=
  { State.reset with
    rndDrawn := s.rndDrawn
    rndSupplied := s.rndSupplied
    inbox := rest
    replies := s.replies }

end Sys2Proof.Machine
end

