-- ==== Sys2Proof/Machine/Round.lean ====
section
/-! DEFINITION. The AES round transforms and their commands SUBB, ISUBB, SHROW, ISHROW, MIXC, IMIXC, ARK
(41_aes_round.md). Each function computes sixteen new bytes from sixteen old ones (R120). -/

namespace Sys2Proof.Machine

/-- SubBytes(B)[k] = SBOX[B[k]] (41_aes_round.md R121). -/
def subBytes (b : Block) : Block := b.map sbox

/-- InvSubBytes(B)[k] = ISBOX[B[k]] (41_aes_round.md R122). -/
def invSubBytes (b : Block) : Block := b.map isbox

/-- The byte at row r, column c of a block's matrix: B[r + 4c] (00_scope.md R14). -/
def matrixByte (b : Block) (r c : Fin 4) : Byte := b[r.val + 4 * c.val]

/-- The block whose matrix has the given entries: byte k is at row k mod 4, column k div 4 (20_memory.md R54). -/
def blockOfMatrix (s : Fin 4 → Fin 4 → Byte) : Block :=
  Vector.ofFn fun k : Fin 16 => s ⟨k.val % 4, by omega⟩ ⟨k.val / 4, by omega⟩

/-- ShiftRows: s'[r][c] = s[r][(c + r) mod 4] (41_aes_round.md R123). -/
def shiftRows (b : Block) : Block := blockOfMatrix fun r c => matrixByte b r (c + r)

/-- InvShiftRows: s'[r][c] = s[r][(c − r) mod 4] (41_aes_round.md R124). -/
def invShiftRows (b : Block) : Block := blockOfMatrix fun r c => matrixByte b r (c - r)

/-- The forward mixing matrix MIX (41_aes_round.md R125). -/
def mixMatrix : Vector (Vector Byte 4) 4 :=
  #v[#v[0x02, 0x03, 0x01, 0x01],
     #v[0x01, 0x02, 0x03, 0x01],
     #v[0x01, 0x01, 0x02, 0x03],
     #v[0x03, 0x01, 0x01, 0x02]]

/-- The inverse mixing matrix IMIX (41_aes_round.md R126). -/
def invMixMatrix : Vector (Vector Byte 4) 4 :=
  #v[#v[0x0E, 0x0B, 0x0D, 0x09],
     #v[0x09, 0x0E, 0x0B, 0x0D],
     #v[0x0D, 0x09, 0x0E, 0x0B],
     #v[0x0B, 0x0D, 0x09, 0x0E]]

/-- Each output column is the product of a 4×4 matrix with the input column, "each output byte computed as
the XOR of four GF products" (41_aes_round.md R125). -/
def mixBy (mx : Vector (Vector Byte 4) 4) (b : Block) : Block :=
  blockOfMatrix fun i c =>
    gfMul mx[i][0] (matrixByte b 0 c) ^^^ gfMul mx[i][1] (matrixByte b 1 c)
      ^^^ gfMul mx[i][2] (matrixByte b 2 c) ^^^ gfMul mx[i][3] (matrixByte b 3 c)

/-- MixColumns (41_aes_round.md R125). -/
def mixColumns (b : Block) : Block := mixBy mixMatrix b

/-- InvMixColumns (41_aes_round.md R126). -/
def invMixColumns (b : Block) : Block := mixBy invMixMatrix b

/-- AddRoundKey(B, K)[k] = B[k] ^ K[k] (41_aes_round.md R127). -/
def addRoundKey (b k : Block) : Block := Vector.zipWith (· ^^^ ·) b k

/-- SUBB: ST <- SubBytes(ST) (41_aes_round.md R121). -/
def execSubb (s : State) : Host.Outcome State Fault Refusal := .next (s.writeSt (subBytes s.st)).complete

/-- ISUBB: ST <- InvSubBytes(ST) (41_aes_round.md R122). -/
def execIsubb (s : State) : Host.Outcome State Fault Refusal := .next (s.writeSt (invSubBytes s.st)).complete

/-- SHROW: ST <- ShiftRows(ST) (41_aes_round.md R123). -/
def execShrow (s : State) : Host.Outcome State Fault Refusal := .next (s.writeSt (shiftRows s.st)).complete

/-- ISHROW: ST <- InvShiftRows(ST) (41_aes_round.md R124). -/
def execIshrow (s : State) : Host.Outcome State Fault Refusal := .next (s.writeSt (invShiftRows s.st)).complete

/-- MIXC: ST <- MixColumns(ST) (41_aes_round.md R125). -/
def execMixc (s : State) : Host.Outcome State Fault Refusal := .next (s.writeSt (mixColumns s.st)).complete

/-- IMIXC: ST <- InvMixColumns(ST) (41_aes_round.md R126). -/
def execImixc (s : State) : Host.Outcome State Fault Refusal := .next (s.writeSt (invMixColumns s.st)).complete

/-- ARK r: ST <- AddRoundKey(ST, RK[r]), or NO_SCHEDULE while KV = 0 (41_aes_round.md R127). A round index
above 10 names no round key: ILLEGAL_CMD, tested first (30_encoding.md R84, 60_exceptions.md R244). -/
def execArk (ridx : BitVec 4) (s : State) : Host.Outcome State Fault Refusal :=
  if h : ridx.toNat < 11 then
    if s.kv then .next (s.writeSt (addRoundKey s.st s.rk[ridx.toNat])).complete
    else .next (s.raiseErr .noSchedule)
  else .next (s.raiseErr .illegalCmd)

end Sys2Proof.Machine
end

