-- ==== Sys2Proof/Machine/Engine.lean ====
section
/-! DEFINITION. The AES engine: the functions Encrypt and Decrypt, the sequencer, and the commands ENC and
DEC (43_aes_engine.md). -/

namespace Sys2Proof.Machine

/-- Round keys 1..9 in the order Encrypt uses them (43_aes_engine.md R150). -/
def middleRounds : List (Fin 11) := [1, 2, 3, 4, 5, 6, 7, 8, 9]

/-- One full encryption round: SubBytes, ShiftRows, MixColumns, AddRoundKey (43_aes_engine.md R150). -/
def encryptRound (x k : Block) : Block := addRoundKey (mixColumns (shiftRows (subBytes x))) k

/-- The final encryption round, without MixColumns (43_aes_engine.md R150). -/
def encryptFinal (x k : Block) : Block := addRoundKey (shiftRows (subBytes x)) k

/-- One full decryption round: InvShiftRows, InvSubBytes, AddRoundKey, InvMixColumns (43_aes_engine.md R151). -/
def decryptRound (x k : Block) : Block := invMixColumns (addRoundKey (invSubBytes (invShiftRows x)) k)

/-- The final decryption round, without InvMixColumns (43_aes_engine.md R151). -/
def decryptFinal (x k : Block) : Block := addRoundKey (invSubBytes (invShiftRows x)) k

/-- Encrypt(B, S) (43_aes_engine.md R150). -/
def encrypt (b : Block) (sched : Schedule) : Block :=
  encryptFinal (middleRounds.foldl (fun x r => encryptRound x sched[r]) (addRoundKey b sched[0])) sched[10]

/-- Decrypt(B, S): the same schedule, read from index 10 down to 0 (43_aes_engine.md R151). -/
def decrypt (b : Block) (sched : Schedule) : Block :=
  decryptFinal (middleRounds.reverse.foldl (fun x r => decryptRound x sched[r]) (addRoundKey b sched[10])) sched[0]

/-- The IDLE row on ENC with KV = 1: ST unchanged, to (INITIAL, ENCRYPT, 0) (43_aes_engine.md R152). -/
def State.startEncrypt (s : State) : State := s.setSequencer .initial .encrypt 0

/-- The IDLE row on DEC with KV = 1: ST unchanged, to (INITIAL, DECRYPT, 10) (43_aes_engine.md R152). -/
def State.startDecrypt (s : State) : State := s.setSequencer .initial .decrypt 10

/-- One engine step: the row of the table of 43_aes_engine.md R152 that the sequencer stands in, with the
round key its RND names (R156); none where the table has no row. The last row ends the command. -/
def engineStep (s : State) : Option State :=
  match s.phase, s.mode with
  | .idle, _ => none
  | .initial, .encrypt =>
    if s.rnd = 0 then some ((s.writeSt (addRoundKey s.st s.rk[s.rnd])).setSequencer .round .encrypt 1) else none
  | .round, .encrypt =>
    if 1 ≤ s.rnd.val ∧ s.rnd.val ≤ 8 then
      some ((s.writeSt (encryptRound s.st s.rk[s.rnd])).setSequencer .round .encrypt (s.rnd + 1))
    else if s.rnd = 9 then
      some ((s.writeSt (encryptRound s.st s.rk[s.rnd])).setSequencer .final .encrypt 10)
    else none
  | .final, .encrypt =>
    if s.rnd = 10 then some ((s.writeSt (encryptFinal s.st s.rk[s.rnd])).setSequencer .idle .encrypt 0).complete
    else none
  | .initial, .decrypt =>
    if s.rnd = 10 then some ((s.writeSt (addRoundKey s.st s.rk[s.rnd])).setSequencer .round .decrypt 9) else none
  | .round, .decrypt =>
    if 2 ≤ s.rnd.val ∧ s.rnd.val ≤ 9 then
      some ((s.writeSt (decryptRound s.st s.rk[s.rnd])).setSequencer .round .decrypt (s.rnd - 1))
    else if s.rnd = 1 then
      some ((s.writeSt (decryptRound s.st s.rk[s.rnd])).setSequencer .final .decrypt 0)
    else none
  | .final, .decrypt =>
    if s.rnd = 0 then some ((s.writeSt (decryptFinal s.st s.rk[s.rnd])).setSequencer .idle .decrypt 0).complete
    else none

/-- One engine step as an outcome: a sequencer without a row stops the machine (log entry 9). -/
def sequencerStep (s : State) : Host.Outcome State Fault Refusal :=
  match engineStep s with
  | some t => .next t
  | none => .fault .sequencerStuck

/-- n engine steps one after another (43_aes_engine.md R152). -/
def runSequencer (n : Nat) (s : State) : Host.Outcome State Fault Refusal :=
  match n with
  | 0 => .next s
  | k + 1 =>
    match engineStep s with
    | some t => runSequencer k t
    | none => .fault .sequencerStuck

/-- ENC: NO_SCHEDULE while KV = 0, else the eleven engine steps of an encryption, which end the command
(43_aes_engine.md R152, R153). -/
def execEnc (s : State) : Host.Outcome State Fault Refusal :=
  if s.kv then runSequencer 11 s.startEncrypt else .next (s.raiseErr .noSchedule)

/-- DEC: NO_SCHEDULE while KV = 0, else the eleven engine steps of a decryption, which end the command
(43_aes_engine.md R152, R154). -/
def execDec (s : State) : Host.Outcome State Fault Refusal :=
  if s.kv then runSequencer 11 s.startDecrypt else .next (s.raiseErr .noSchedule)

end Sys2Proof.Machine
end

