-- ==== Sys2Proof/Machine/Ring.lean ====
section
/-! DEFINITION. The ring Z_3329[x]/(x^256 + 1), message encoding and decoding, and the commands PADD, PSUB,
PMUL, PENC, PDEC (44_poly_ring.md). -/

namespace Sys2Proof.Machine

/-- The canonical representative in [0, Q) of an integer, in 12 bits (44_poly_ring.md R171). -/
def coeffOfInt (x : Int) : Coeff := BitVec.ofNat 12 (x % (ringQ : Int)).toNat

/-- PolyAdd(f, g)[j] = (f[j] + g[j]) mod Q (44_poly_ring.md R172). -/
def polyAdd (f g : Poly) : Poly := Vector.ofFn fun j : Fin 256 => coeffOfInt ((f[j].toNat : Int) + g[j].toNat)

/-- PolySub(f, g)[j] = (f[j] − g[j]) mod Q (44_poly_ring.md R173). -/
def polySub (f g : Poly) : Poly := Vector.ofFn fun j : Fin 256 => coeffOfInt ((f[j].toNat : Int) - g[j].toNat)

/-- The convolution c[t] = Σ_{i+j=t} f[i]·g[j], both indices in 0..255 (44_poly_ring.md R174). -/
def convolution (f g : Poly) (t : Nat) : Nat :=
  ((List.range (t + 1)).map fun i => coeffAt f i * coeffAt g (t - i)).sum

/-- PolyMul(f, g)[k] = (c[k] − c[k + 256]) mod Q: reduction modulo x^256 + 1 (44_poly_ring.md R174). -/
def polyMul (f g : Poly) : Poly :=
  Vector.ofFn fun k : Fin 256 => coeffOfInt ((convolution f g k.val : Int) - convolution f g (k.val + 256))

/-- Message bit j: bit j mod 8 of byte j div 8 (00_scope.md R16). -/
def messageBit (m : Bytes32) (j : Fin 256) : Bool := m[j.val / 8].getLsbD (j.val % 8)

/-- The message with the given bits (00_scope.md R16). -/
def messageOfBits (bits : Fin 256 → Bool) : Bytes32 :=
  Vector.ofFn fun i : Fin 32 => BitVec.ofFnLE fun b : Fin 8 => bits ⟨8 * i.val + b.val, by omega⟩

/-- Encode(m) with the coefficient `one` for a 1 bit (44_poly_ring.md R175). -/
def encodeMessage (one : Nat) (m : Bytes32) : Poly :=
  Vector.ofFn fun j : Fin 256 => if messageBit m j then BitVec.ofNat 12 one else 0#12

/-- Decode(p) with the threshold t: bit j is 1 exactly when p[j] > t (44_poly_ring.md R176). -/
def decodeMessage (t : Nat) (f : Poly) : Bytes32 := messageOfBits fun j => decide (t < f[j].toNat)

/-- PADD Pd, Pa, Pb (44_poly_ring.md R172). -/
def execPadd (rd ra rb : PReg) (s : State) : Host.Outcome State Fault Refusal :=
  .next (s.writePoly rd (polyAdd s.p[ra] s.p[rb])).complete

/-- PSUB Pd, Pa, Pb: Pa minus Pb (44_poly_ring.md R173). -/
def execPsub (rd ra rb : PReg) (s : State) : Host.Outcome State Fault Refusal :=
  .next (s.writePoly rd (polySub s.p[ra] s.p[rb])).complete

/-- PMUL Pd, Pa, Pb (44_poly_ring.md R174). -/
def execPmul (rd ra rb : PReg) (s : State) : Host.Outcome State Fault Refusal :=
  .next (s.writePoly rd (polyMul s.p[ra] s.p[rb])).complete

/-- P[d] <- Encode(M) with the build's ENC_ONE (44_poly_ring.md R175). -/
def State.encodeInto (s : State) (d : PReg) : State := s.writePoly d (encodeMessage Config.encOne s.m)

/-- MP <- Decode(P[a]) with the build's DEC_T; DMM (44_poly_ring.md R176). -/
def State.decodeFrom (s : State) (a : PReg) : State := s.writeDecoded (decodeMessage Config.decT s.p[a])

/-- PENC Pd (44_poly_ring.md R175). -/
def execPenc (rp : PReg) (s : State) : Host.Outcome State Fault Refusal := .next (s.encodeInto rp).complete

/-- PDEC Pa (44_poly_ring.md R176). -/
def execPdec (rp : PReg) (s : State) : Host.Outcome State Fault Refusal := .next (s.decodeFrom rp).complete

end Sys2Proof.Machine
end

