-- ==== Sys2Proof/Machine/Sampler.lean ====
section
/-! DEFINITION. The sampler functions and the commands PSAMPU, PSAMPN, MSAMP (45_sampler.md). -/

namespace Sys2Proof.Machine

/-- SampleUniform on the word drawn: w mod Q (45_sampler.md R191). -/
def sampleUniform (w : Word) : Coeff := BitVec.ofNat 12 (w.toNat % ringQ)

/-- The magnitude k: "number of indices i in 0..c-1 with t >= CDT[i]" (45_sampler.md R192). -/
def noiseMagnitude (cdt : List Nat) (t : Nat) : Nat := cdt.countP fun entry => decide (entry ≤ t)

/-- SampleNoise on the word drawn: magnitude from bits 15:0 through the table, sign from bit 16, −k held as
Q − k (45_sampler.md R192). -/
def sampleNoise (cdt : List Nat) (w : Word) : Coeff :=
  let k := noiseMagnitude cdt (w.toNat % 2 ^ 16)
  if k = 0 ∨ w.getLsbD 16 = false then BitVec.ofNat 12 k else BitVec.ofNat 12 (ringQ - k)

/-- P[d] <- 256 coefficients, coefficient j from the j-th word drawn (45_sampler.md R194, R195). -/
def State.samplePoly (s : State) (d : PReg) (sample : Word → Coeff) : State :=
  (s.writePoly d (Vector.ofFn fun j : Fin 256 => sample (s.portWord j.val))).consumeWords 256

/-- P[d] <- 256 × SampleUniform() (45_sampler.md R194). -/
def State.samplePolyUniform (s : State) (d : PReg) : State := s.samplePoly d sampleUniform

/-- P[d] <- 256 × SampleNoise() with the build's table (45_sampler.md R195). -/
def State.samplePolyNoise (s : State) (d : PReg) : State := s.samplePoly d (sampleNoise Config.cdt)

/-- M <- 8 words, each low byte first (45_sampler.md R196). -/
def State.sampleMessage (s : State) : State :=
  (s.writeMessage (Vector.ofFn fun i : Fin 32 => wordByte (s.portWord (i.val / 4)) (i.val % 4))).consumeWords 8

/-- PSAMPU Pd (45_sampler.md R194). -/
def execPsampu (rp : PReg) (s : State) : Host.Outcome State Fault Refusal := .next (s.samplePolyUniform rp).complete

/-- PSAMPN Pd (45_sampler.md R195). -/
def execPsampn (rp : PReg) (s : State) : Host.Outcome State Fault Refusal := .next (s.samplePolyNoise rp).complete

/-- MSAMP (45_sampler.md R196). -/
def execMsamp (s : State) : Host.Outcome State Fault Refusal := .next s.sampleMessage.complete

end Sys2Proof.Machine
end

