-- ==== Sys2Proof/Machine/Kem.lean ====
section
/-! DEFINITION. The lattice KEM commands KHASH, KEYGEN, ENCAPS, DECAPS, SS2KEY (46_kem.md), over the register
allocation of R217. -/

namespace Sys2Proof.Machine

/-- The hash input Ser(u) ‖ Ser(v) ‖ m (46_kem.md R210). -/
def hashInput (u v : Poly) (m : Bytes32) : List Byte := ser u ++ ser v ++ m.toList

/-- SSE or SSD <- HASH256(Ser(P[a]) ‖ Ser(P[b]) ‖ M or MP) (46_kem.md R212). -/
def State.hashSecret (s : State) (sel : Side) (a b : PReg) : State :=
  s.writeSecret sel (Config.hash256 (hashInput s.p[a] s.p[b] (s.message sel)))

/-- KHASH sel, Pa, Pb (46_kem.md R212). -/
def execKhash (sel : Side) (ra rb : PReg) (s : State) : Host.Outcome State Fault Refusal :=
  .next (s.hashSecret sel ra rb).complete

/-- KEYGEN's register writes: A, s, e, then pk = A·s + e (46_kem.md R213). -/
def State.keygen (s : State) : State :=
  let s := s.samplePolyUniform 0
  let s := s.samplePolyUniform 1
  let s := s.samplePolyNoise 3
  s.writePoly 2 (polyAdd (polyMul s.p[0] s.p[1]) s.p[3])

/-- ENCAPS's register writes: r, e1, e2, m, Encode(m), u, v, then SSE (46_kem.md R214). -/
def State.encaps (s : State) : State :=
  let s := s.samplePolyUniform 4
  let s := s.samplePolyNoise 5
  let s := s.samplePolyNoise 6
  let s := s.sampleMessage
  let s := s.encodeInto 7
  let s := s.writePoly 8 (polyAdd (polyMul s.p[0] s.p[4]) s.p[5])
  let s := s.writePoly 9 (polyAdd (polyAdd (polyMul s.p[2] s.p[4]) s.p[7]) s.p[6])
  s.hashSecret .encapsulation 8 9

/-- DECAPS's register writes: v' = u·s, v − v', MP and DMM, then SSD (46_kem.md R215). -/
def State.decaps (s : State) : State :=
  let s := s.writePoly 10 (polyMul s.p[8] s.p[1])
  let s := s.writePoly 11 (polySub s.p[9] s.p[10])
  let s := s.decodeFrom 11
  s.hashSecret .decapsulation 8 9

/-- KEYGEN (46_kem.md R213). -/
def execKeygen (s : State) : Host.Outcome State Fault Refusal := .next s.keygen.complete

/-- ENCAPS (46_kem.md R214). -/
def execEncaps (s : State) : Host.Outcome State Fault Refusal := .next s.encaps.complete

/-- DECAPS; a mismatch is no error (46_kem.md R215). -/
def execDecaps (s : State) : Host.Outcome State Fault Refusal := .next s.decaps.complete

/-- SS2KEY sel: KEY <- the first 16 bytes of SSE or SSD; KV <- 0 (46_kem.md R216). -/
def execSs2key (sel : Side) (s : State) : Host.Outcome State Fault Refusal :=
  .next (s.writeKey (firstBlock (s.secret sel))).complete

end Sys2Proof.Machine
end

