-- ==== Sys2Proof/Machine/KeySchedule.lean ====
section
/-! DEFINITION. The AES-128 key schedule and the command KEYEXP (42_key_schedule.md). -/

namespace Sys2Proof.Machine

/-- A 4-byte word of a round key: one column (42_key_schedule.md R140). -/
abbrev KeyWord := Vector Byte 4

/-- RCON[r] for r = 1..10; there is no RCON[0] and nothing reads it (42_key_schedule.md R141). -/
def rcon (r : Nat) : Byte :=
  ([0x01, 0x02, 0x04, 0x08, 0x10, 0x20, 0x40, 0x80, 0x1B, 0x36] : List Byte).getD (r - 1) 0#8

/-- The word w_i of a round key: bytes 4i to 4i + 3 (42_key_schedule.md R140). -/
def keyWord (x : Block) (i : Fin 4) : KeyWord := Vector.ofFn fun j : Fin 4 => x[4 * i.val + j.val]

/-- XOR of words is bytewise (42_key_schedule.md R140). -/
def xorWord (a b : KeyWord) : KeyWord := Vector.zipWith (· ^^^ ·) a b

/-- RotWord((a0, a1, a2, a3)) = (a1, a2, a3, a0) (42_key_schedule.md R142). -/
def rotWord (a : KeyWord) : KeyWord := #v[a[1], a[2], a[3], a[0]]

/-- SubWord substitutes each byte via the S-box (42_key_schedule.md R142). -/
def subWord (a : KeyWord) : KeyWord := a.map sbox

/-- The round constant XORed into the leading byte only (42_key_schedule.md R141). -/
def addRcon (r : Nat) (a : KeyWord) : KeyWord := #v[a[0] ^^^ rcon r, a[1], a[2], a[3]]

/-- S[r] from S[r−1] (42_key_schedule.md R140). -/
def nextRoundKey (r : Nat) (prev : Block) : Block :=
  let t := addRcon r (subWord (rotWord (keyWord prev 3)))
  let n0 := xorWord (keyWord prev 0) t
  let n1 := xorWord (keyWord prev 1) n0
  let n2 := xorWord (keyWord prev 2) n1
  let n3 := xorWord (keyWord prev 3) n2
  n0 ++ n1 ++ n2 ++ n3

/-- S[r]; S[0] is the root key (42_key_schedule.md R140). -/
def roundKey (k : Block) (r : Nat) : Block :=
  match r with
  | 0 => k
  | n + 1 => nextRoundKey (n + 1) (roundKey k n)

/-- Expand(K) = S[0..10] (42_key_schedule.md R140). -/
def expand (k : Block) : Schedule := Vector.ofFn fun r : Fin 11 => roundKey k r.val

/-- KEYEXP: RK[0..10] <- Expand(KEY); KV <- 1 (42_key_schedule.md R143). -/
def execKeyexp (s : State) : Host.Outcome State Fault Refusal := .next (s.writeSchedule (expand s.key)).complete

end Sys2Proof.Machine
end

