-- ==== Sys2Proof/Machine/System.lean ====
section
/-! DEFINITION. The system commands NOP and CLRERR (47_system.md). -/

namespace Sys2Proof.Machine

/-- NOP: nothing but the end of a command (47_system.md R230). -/
def execNop (s : State) : Host.Outcome State Fault Refusal := .next s.complete

/-- CLRERR: FERR <- 0 (47_system.md R231). -/
def execClrerr (s : State) : Host.Outcome State Fault Refusal := .next s.clearFerr.complete

end Sys2Proof.Machine
end

