-- ==== Sys2Proof/Machine/Dispatch.lean ====
section
/-! DEFINITION. The dispatch of a decoded command to its meaning, one arm per constructor. -/

namespace Sys2Proof.Machine

/-- "execute c as its rule says" (30_encoding.md R88), with the checks that precede the effect. -/
def exec (i : Instr) (s : State) : Host.Outcome State Fault Refusal :=
  match i with
  | .nop => Sys2Proof.Machine.execNop s
  | .clrerr => Sys2Proof.Machine.execClrerr s
  | .keyexp => Sys2Proof.Machine.execKeyexp s
  | .ark ridx => Sys2Proof.Machine.execArk ridx s
  | .subb => Sys2Proof.Machine.execSubb s
  | .isubb => Sys2Proof.Machine.execIsubb s
  | .shrow => Sys2Proof.Machine.execShrow s
  | .ishrow => Sys2Proof.Machine.execIshrow s
  | .mixc => Sys2Proof.Machine.execMixc s
  | .imixc => Sys2Proof.Machine.execImixc s
  | .enc => Sys2Proof.Machine.execEnc s
  | .dec => Sys2Proof.Machine.execDec s
  | .gfmul a b => Sys2Proof.Machine.execGfmul a b s
  | .sbox a => Sys2Proof.Machine.execSbox a s
  | .isbox a => Sys2Proof.Machine.execIsbox a s
  | .padd rd ra rb => Sys2Proof.Machine.execPadd rd ra rb s
  | .psub rd ra rb => Sys2Proof.Machine.execPsub rd ra rb s
  | .pmul rd ra rb => Sys2Proof.Machine.execPmul rd ra rb s
  | .psampu rp => Sys2Proof.Machine.execPsampu rp s
  | .psampn rp => Sys2Proof.Machine.execPsampn rp s
  | .msamp => Sys2Proof.Machine.execMsamp s
  | .penc rp => Sys2Proof.Machine.execPenc rp s
  | .pdec rp => Sys2Proof.Machine.execPdec rp s
  | .khash sel ra rb => Sys2Proof.Machine.execKhash sel ra rb s
  | .keygen => Sys2Proof.Machine.execKeygen s
  | .encaps => Sys2Proof.Machine.execEncaps s
  | .decaps => Sys2Proof.Machine.execDecaps s
  | .ss2key sel => Sys2Proof.Machine.execSs2key sel s

end Sys2Proof.Machine
end

