-- ==== Sys2Proof/Machine/Window.lean ====
section
/-! DEFINITION. The register window: the map of 20_memory.md R52, the value every mapped word reads as, and
the read transaction of R69. -/

namespace Sys2Proof.Machine

/-- The mapped ranges of the register window, by the name 20_memory.md R52 gives each. -/
inductive WindowReg
  | cmd
  | status
  | bres
  | id
  | param0
  | param1
  | st
  | key
  | rk
  | m
  | mp
  | sse
  | ssd
  | cdt
  | poly
  deriving DecidableEq, Repr

/-- One mapped range: first byte offset, number of 32-bit words, name, and whether the host may write it
(20_memory.md R52). -/
structure Region where
  first : Nat
  words : Nat
  reg : WindowReg
  writable : Bool
  deriving DecidableEq, Repr

/-- The register map: the mapped rows of the table of 20_memory.md R52; every other offset is unmapped. -/
def registerMap : List Region :=
  [ ⟨0x0000, 1, .cmd, true⟩,
    ⟨0x0004, 1, .status, false⟩,
    ⟨0x0008, 1, .bres, false⟩,
    ⟨0x000C, 1, .id, false⟩,
    ⟨0x0010, 1, .param0, false⟩,
    ⟨0x0014, 1, .param1, false⟩,
    ⟨0x0020, 4, .st, true⟩,
    ⟨0x0030, 4, .key, true⟩,
    ⟨0x0040, 44, .rk, false⟩,
    ⟨0x0100, 8, .m, true⟩,
    ⟨0x0120, 8, .mp, false⟩,
    ⟨0x0140, 8, .sse, false⟩,
    ⟨0x0160, 8, .ssd, false⟩,
    ⟨0x0180, 16, .cdt, false⟩,
    ⟨0x2000, 2048, .poly, true⟩ ]

/-- The size of the window in bytes (20_memory.md R50). -/
def windowSize : Nat := 0x4000

/-- The region an offset lies in. -/
def Region.holds (r : Region) (off : Nat) : Bool := decide (r.first ≤ off ∧ off < r.first + 4 * r.words)

/-- "Every access must have off mod 4 = 0 and 0 ≤ off < 0x4000" (20_memory.md R57). -/
def accessAligned (off : Nat) : Bool := decide (off % 4 = 0 ∧ off < windowSize)

/-- The region of an aligned offset of the window, none where the offset is misaligned, outside or unmapped
(20_memory.md R57, R58). -/
def locate (off : Nat) : Option Region := if accessAligned off then registerMap.find? fun r => r.holds off else none

/-- ID (10_state.md R33). -/
def idWord : Word := 0x44560001#32

/-- PARAM0: N in bits 15:0, Q in bits 31:16 (10_state.md R33). -/
def param0Word : Word := BitVec.ofNat 32 (ringN + ringQ * 2 ^ 16)

/-- PARAM1: CLAMP in bits 7:0, ENC_ONE in 19:8, DEC_T in 31:20 (10_state.md R33). -/
def param1Word (clamp encOne decT : Nat) : Word := BitVec.ofNat 32 (clamp + encOne * 2 ^ 8 + decT * 2 ^ 20)

/-- Word i of the CDT window: CDT[i] for i < CLAMP, else 65536 (10_state.md R33). -/
def cdtWindowWord (cdt : List Nat) (i : Nat) : Word := BitVec.ofNat 32 (cdt.getD i 65536)

/-- The bytes of the whole schedule, byte k of RK[i] at 16·i + k (20_memory.md R52). -/
def scheduleBytes (sched : Schedule) : List Byte := sched.toList.flatMap fun k => k.toList

/-- The polynomial register of an offset inside the P range (20_memory.md R69). -/
def polyIndex (rel : Nat) : PReg := Fin.ofNat 16 (rel / 0x200)

/-- The word index of an offset inside the P range (20_memory.md R69). -/
def polyWord (rel : Nat) : Nat := rel % 0x200 / 4

/-- The 32-bit word at byte `rel` of a mapped range (20_memory.md R52, R53, R55; 10_state.md R31, R33). -/
def readReg (s : State) (reg : WindowReg) (rel : Nat) : Word :=
  match reg with
  | .cmd => s.cmd
  | .status => statusWord s
  | .bres => BitVec.ofNat 32 s.bres.toNat
  | .id => idWord
  | .param0 => param0Word
  | .param1 => param1Word Config.clamp Config.encOne Config.decT
  | .st => loadWord s.st.toList rel
  | .key => loadWord s.key.toList rel
  | .rk => loadWord (scheduleBytes s.rk) rel
  | .m => loadWord s.m.toList rel
  | .mp => loadWord s.mp.toList rel
  | .sse => loadWord s.sse.toList rel
  | .ssd => loadWord s.ssd.toList rel
  | .cdt => cdtWindowWord Config.cdt (rel / 4)
  | .poly => loadCoeffs s.p[polyIndex rel] (polyWord rel)

/-- The word a host read of an offset finds, none where the offset is misaligned, outside or unmapped. -/
def windowWord (s : State) (off : Nat) : Option Word := (locate off).map fun r => readReg s r.reg (off - r.first)

/-- HostRead(off): the word at off, or 0 and BAD_ACCESS (20_memory.md R69). -/
def hostRead (off : Nat) (s : State) : State :=
  match windowWord s off with
  | some v => s.reply v
  | none => (s.accessErr .badAccess).reply 0#32

/-- The byte offset the engine sees of a platform address, none below BASE (20_memory.md R50). -/
def windowOffset (addr : Nat) : Option Nat := if Config.base ≤ addr then some (addr - Config.base) else none

end Sys2Proof.Machine
end

