-- ==== Sys2Proof/Machine/Port.lean ====
section
/-! DEFINITION. The host port: command issue (30_encoding.md R88), the write transaction (20_memory.md R69),
and the performance of one presented transaction or one engine step (20_memory.md R63, R64). -/

namespace Sys2Proof.Machine

/-- Issue(w): CMD <- w; DONE <- 0; decode; ILLEGAL_CMD, or the command (30_encoding.md R88). -/
def issue (w : Word) (s : State) : Host.Outcome State Fault Refusal :=
  match decode w with
  | .command i => exec i (s.beginCommand w)
  | .illegal _ => .next ((s.beginCommand w).raiseErr .illegalCmd)

/-- A host write of a polynomial word: both halves below Q are stored, else neither and MALFORMED_INPUT
(20_memory.md R60). -/
def writePolyWord (rel : Nat) (v : Word) (s : State) : State :=
  if lowHalf v < ringQ ∧ highHalf v < ringQ then
    s.writePoly (polyIndex rel) (storeCoeffs s.p[polyIndex rel] (polyWord rel) v)
  else s.accessErr .malformedInput

/-- A host write to byte `rel` of a mapped range; a write to a read-only one is BAD_ACCESS and changes nothing
(20_memory.md R58, R69). -/
def writeReg (reg : WindowReg) (rel : Nat) (v : Word) (s : State) : Host.Outcome State Fault Refusal :=
  match reg with
  | .cmd => issue v s
  | .st => .next (s.writeSt (storeWord s.st rel v))
  | .key => .next (s.writeKey (storeWord s.key rel v))
  | .m => .next (s.writeMessage (storeWord s.m rel v))
  | .poly => .next (writePolyWord rel v s)
  | .status | .bres | .id | .param0 | .param1 | .rk | .mp | .sse | .ssd | .cdt => .next (s.accessErr .badAccess)

/-- HostWrite(off, v) (20_memory.md R69), the tests in the order of 60_exceptions.md R244. -/
def hostWrite (off : Nat) (v : Word) (s : State) : Host.Outcome State Fault Refusal :=
  match locate off with
  | none => .next (s.accessErr .badAccess)
  | some r => if r.writable then writeReg r.reg (off - r.first) v s else .next (s.accessErr .badAccess)

/-- One step of the machine: a reset presented takes effect at once (70_reset_and_hazards.md R270, R271); while
PHASE is not IDLE the engine takes its next step and an access is held (20_memory.md R63); else the oldest
access is performed, and with none presented the idle engine holds all its state (60_exceptions.md R252). -/
def advance (s : State) : Host.Outcome State Fault Refusal :=
  match s.inbox with
  | .reset :: rest => .next (s.applyReset rest)
  | [] => if s.phase = .idle then .next s else sequencerStep s
  | .read off :: rest => if s.phase = .idle then .next (hostRead off (s.setInbox rest)) else sequencerStep s
  | .write off v :: rest => if s.phase = .idle then hostWrite off v (s.setInbox rest) else sequencerStep s

/-- The state with a write of the command word w to CMD presented as the next transaction, the engine idle so
that it is performed at once (30_encoding.md R88). -/
def presentCommand (w : Word) (s : State) : State :=
  { s with phase := .idle, rnd := 0, inbox := .write 0 w :: s.inbox }

end Sys2Proof.Machine
end

