-- ==== Sys2Proof/Machine/Step.lean ====
section
/-! DEFINITION. The step of the machine, and how a command word comes to be the next thing it runs. -/

namespace Sys2Proof.Machine

/-- One step: one host transaction, one reset, or one engine step of a running ENC or DEC. -/
def step (s : State) : Host.Outcome State Fault Refusal := advance s

/-- s with the command word w (bits above nbits zero) presented to CMD as the host's next transaction, so that
the next step runs exactly that command: this machine fetches nothing, "it acts only when the host writes a
command word" (00_scope.md R11; log entry 11). -/
def State.withFetchWord (s : State) (nbits w : Nat) : State := presentCommand (BitVec.ofNat 32 (w % 2 ^ nbits)) s

end Sys2Proof.Machine
end

