-- ==== Sys2Proof/Safety.lean ====
section
/-! DEFINITION. What counts as a legal state and a clean run: the invariants the spec states, and the postcondition
of 70_reset_and_hazards.md R287. -/

namespace Sys2Proof.Machine

/-- A polynomial whose every coefficient is in [0, Q) (10_state.md R27). -/
abbrev PolyInRange (f : Poly) : Prop := ∀ j : Fin 256, f[j].toNat < ringQ

/-- "every coefficient of every register is in [0, Q)" (10_state.md R27). -/
abbrev CoeffsInRange (s : State) : Prop := ∀ d : PReg, PolyInRange s.p[d]

/-- "`KV = 1` implies `RK = Expand(KEY)`" (10_state.md R24). -/
abbrev ScheduleCurrent (s : State) : Prop := s.kv = true → s.rk = expand s.key

/-- The sequencer stands in a state of the table of 43_aes_engine.md R152; RND "is 0 whenever PHASE = IDLE"
(10_state.md R36). -/
def sequencerLegal (ph : Phase) (md : Mode) (r : Fin 11) : Bool :=
  match ph, md with
  | .idle, _ => decide (r.val = 0)
  | .initial, .encrypt => decide (r.val = 0)
  | .initial, .decrypt => decide (r.val = 10)
  | .round, _ => decide (1 ≤ r.val ∧ r.val ≤ 9)
  | .final, .encrypt => decide (r.val = 10)
  | .final, .decrypt => decide (r.val = 0)

/-- The sequencer of a state stands in a row of the table of 43_aes_engine.md R152. -/
abbrev SequencerLegal (s : State) : Prop := sequencerLegal s.phase s.mode s.rnd = true

/-- DONE = 1 only when the last command ended with result 0 (10_state.md R30). -/
abbrev DoneMeansOk (s : State) : Prop := s.done = true → s.res = .ok

/-- The invariant of the machine: every state a run reaches has it, and every step keeps it. -/
structure Inv (s : State) : Prop where
  coeffs : CoeffsInRange s
  schedule : ScheduleCurrent s
  sequencer : SequencerLegal s
  done : DoneMeansOk s

/-- A run has not gone wrong as far as its end state shows: FERR = 0 (70_reset_and_hazards.md R287). -/
abbrev CleanEnd (s : State) : Prop := s.ferr = .ok

end Sys2Proof.Machine
end

