-- ==== Sys2Proof/Certificates/Slice0/Obligations.lean ====
section
/-! DEFINITION. The statements about DVCORE-1 for the provers, from the numbered rules of spec/, and the few
words they are written with. A statement about a command gives its whole next state: every field that stands
in no `with` clause is unchanged, and with it every word of the register window that shows only such fields. -/

open Sys2Proof Sys2Proof.Machine

namespace Sys2Proof.Claims

/-- The commands of a list issued one after another, each from the state the one before left. -/
def execAll (cs : List Instr) (s : State) : Host.Outcome State Fault Refusal :=
  match cs with
  | [] => .next s
  | c :: rest =>
    match exec c s with
    | .next t => execAll rest t
    | .fault r => .fault r
    | .refused r => .refused r

/-- The formats of 30_encoding.md R80 by opcode: the opcodes of a format and the bits above bit 7 it reserves. -/
def formatTable : List (List Nat × Word) :=
  [ ([0x00, 0x01, 0x10, 0x12, 0x13, 0x14, 0x15, 0x16, 0x17, 0x18, 0x19, 0x35, 0x40, 0x41, 0x42], 0xFFFFFF00#32),
    ([0x11], 0xFFFFF000#32),
    ([0x20], 0xFF000000#32),
    ([0x21, 0x22], 0xFFFF0000#32),
    ([0x30, 0x31, 0x32], 0xFFF00000#32),
    ([0x33, 0x34, 0x36, 0x37], 0xFFFFF000#32),
    ([0x38], 0xFFF00E00#32),
    ([0x43], 0xFFFFFE00#32) ]

/-- OPC of a word. -/
def opc (w : Word) : Nat := w.toNat % 256

/-- OPC is one of the 28 listed. -/
def Listed (w : Word) : Prop := ∃ f ∈ formatTable, opc w ∈ f.1

/-- A 1 stands in a bit the opcode's format reserves. -/
def ReservedBit (w : Word) : Prop := ∃ f ∈ formatTable, opc w ∈ f.1 ∧ w &&& f.2 ≠ 0#32

/-- RIDX = w[11:8] is above 10. -/
def IndexAboveTen (w : Word) : Prop := 10 < (w.extractLsb' 8 4).toNat

/-- FERR after an error event. -/
def ferrAfter (s : State) (c : ResultCode) : ResultCode := if s.ferr = .ok then c else s.ferr

/-- An offset at which no register answers: misaligned, outside the window, or unmapped (60_exceptions.md R243). -/
def BadOffset (off : Nat) : Prop :=
  off % 4 ≠ 0 ∨ 0x4000 ≤ off ∨ (0x18 ≤ off ∧ off ≤ 0x1F) ∨ (0xF0 ≤ off ∧ off ≤ 0xFF) ∨ (0x1C0 ≤ off ∧ off ≤ 0x1FFF)

/-- An offset of a read-only register (20_memory.md R52, R58). -/
def ReadOnlyOffset (off : Nat) : Prop :=
  (0x04 ≤ off ∧ off ≤ 0x17) ∨ (0x40 ≤ off ∧ off ≤ 0xEF) ∨ (0x120 ≤ off ∧ off ≤ 0x1BF)

/-- The word at an offset of the window holds four given bytes, the first in bits 7:0. -/
def HoldsBytes (s : State) (off : Nat) (b0 b1 b2 b3 : Byte) : Prop :=
  ∃ v, windowWord s off = some v ∧ v.extractLsb' 0 8 = b0 ∧ v.extractLsb' 8 8 = b1 ∧ v.extractLsb' 16 8 = b2 ∧
    v.extractLsb' 24 8 = b3

/-- A byte-array register with the bytes of word w replaced by the bytes of v, low byte first. -/
def withWord {n : Nat} (x : Vector Byte n) (w : Nat) (v : Word) : Vector Byte n :=
  Vector.ofFn fun k : Fin n => if k.val / 4 = w then v.extractLsb' (8 * (k.val % 4)) 8 else x[k]

/-- The oldest thing presented is a reset. -/
def ResetPresented (s : State) : Prop := ∃ rest, s.inbox = .reset :: rest

/-- A byte as a polynomial over GF(2), bit i the coefficient of x^i (40_gf_tables.md R101). -/
noncomputable def bytePoly (a : Byte) : Polynomial (ZMod 2) :=
  ∑ i : Fin 8, if a.getLsbD i.val then Polynomial.X ^ i.val else 0

/-- A polynomial register as an element of Z_Q[x] (44_poly_ring.md R170). -/
noncomputable def ringPoly (f : Poly) : Polynomial (ZMod 3329) :=
  ∑ j : Fin 256, Polynomial.C ((f[j].toNat : Nat) : ZMod 3329) * Polynomial.X ^ j.val

/-- The affine map of the S-box (40_gf_tables.md R103). -/
def affine (x : Byte) : Byte :=
  x ^^^ x.rotateLeft 1 ^^^ x.rotateLeft 2 ^^^ x.rotateLeft 3 ^^^ x.rotateLeft 4 ^^^ 0x63#8

/-- A round constant as the doublings of 0x01 (42_key_schedule.md R141). -/
def doublings (n : Nat) : Byte :=
  match n with
  | 0 => 0x01#8
  | k + 1 => gfMul (doublings k) 0x02#8

/-- The byte t[j] the round function adds in round r, from the previous round key: rotated, substituted, the
round constant on byte 0 (42_key_schedule.md R140). -/
def scheduleByte (r : Nat) (prev : Block) (j : Fin 4) : Byte :=
  sbox (prev[12 + (j.val + 1) % 4]'(by omega)) ^^^ (if j.val = 0 then doublings (r - 1) else 0#8)

/-- The words each command draws (45_sampler.md R197). -/
def wordsDrawn (i : Instr) : Nat :=
  match i with
  | .psampu _ | .psampn _ => 256
  | .msamp => 8
  | .keygen => 768
  | .encaps => 776
  | .nop | .clrerr | .keyexp | .ark _ | .subb | .isubb | .shrow | .ishrow | .mixc | .imixc | .enc | .dec => 0
  | .gfmul _ _ | .sbox _ | .isbox _ | .padd _ _ _ | .psub _ _ _ | .pmul _ _ _ | .penc _ | .pdec _ => 0
  | .khash _ _ _ | .decaps | .ss2key _ => 0

/-- The primitive commands of encryption round r (43_aes_engine.md R153). -/
def encRoundCommands (r : Nat) : List Instr := [.subb, .shrow, .mixc, .ark (BitVec.ofNat 4 r)]

/-- The primitive commands of decryption round r (43_aes_engine.md R154). -/
def decRoundCommands (r : Nat) : List Instr := [.ishrow, .isubb, .ark (BitVec.ofNat 4 r), .imixc]

/-- The primitive commands ENC stands for: `ARK 0; {SUBB; SHROW; MIXC; ARK r} for r = 1..9; SUBB; SHROW; ARK 10`
(43_aes_engine.md R153). -/
def encCommands : List Instr :=
  .ark 0 :: List.append ((List.range 9).flatMap fun n => encRoundCommands (n + 1)) [.subb, .shrow, .ark 10]

/-- The primitive commands DEC stands for: `ARK 10; {ISHROW; ISUBB; ARK r; IMIXC} for r = 9..1; ISHROW; ISUBB;
ARK 0` (43_aes_engine.md R154). -/
def decCommands : List Instr :=
  .ark 10 :: List.append ((List.range 9).flatMap fun n => decRoundCommands (9 - n)) [.ishrow, .isubb, .ark 0]

/-- The error polynomial e·r + e2 − e1·s of a state's registers (46_kem.md R218). -/
def errorPoly (s : State) : Poly :=
  polySub (polyAdd (polyMul s.p[3] s.p[4]) s.p[6]) (polyMul s.p[5] s.p[1])

end Sys2Proof.Claims

open Sys2Proof.Claims

/-! ## Encoding -/

/-- 30_encoding.md R80, R81, R83, R84: every command's word decodes to it, with every operand at every value. -/
def Obligations.DecodeOfEncode : Prop :=
  ∀ i : Instr, WellFormed i → decode (encode i) = .command i

/-- 30_encoding.md R80, R84: a word decodes to at most one command, and it is that command's only word. -/
def Obligations.EncodeOfDecode : Prop :=
  ∀ (w : Word) (i : Instr), decode w = .command i → WellFormed i ∧ encode i = w

/-- 30_encoding.md R84: a matching row gives its command; the illegal words are exactly the three kinds. -/
def Obligations.DecodeIsTheOpcodeMap : Prop :=
  (∀ w : Word, ∀ row ∈ opcodeMap, w &&& row.mask = row.pattern → ¬ (opc w = 0x11 ∧ IndexAboveTen w) →
    decode w = .command (row.command w)) ∧
  (∀ w : Word, decode w = .illegal .unknownOpcode ↔ ¬ Listed w) ∧
  (∀ w : Word, decode w = .illegal .reservedBitSet ↔ ReservedBit w) ∧
  (∀ w : Word, decode w = .illegal .roundIndexAboveTen ↔ opc w = 0x11 ∧ ¬ ReservedBit w ∧ IndexAboveTen w)

/-- 30_encoding.md R83, R86: words written out from the format table decode to the commands they stand for. -/
def Obligations.WrittenWordsDecode : Prop :=
  decode 0x00000000#32 = .command .nop ∧ decode 0x00000001#32 = .command .clrerr ∧
  decode 0x00000010#32 = .command .keyexp ∧ decode 0x00000A11#32 = .command (.ark 10) ∧
  decode 0x00835720#32 = .command (.gfmul 0x57#8 0x83#8) ∧ decode 0x00005321#32 = .command (.sbox 0x53#8) ∧
  decode 0x00010232#32 = .command (.pmul 2 0 1) ∧ decode 0x000A9B31#32 = .command (.psub 11 9 10) ∧
  decode 0x00000B37#32 = .command (.pdec 11) ∧ decode 0x00098138#32 = .command (.khash .decapsulation 8 9) ∧
  decode 0x00000143#32 = .command (.ss2key .decapsulation) ∧ decode 0x00000B11#32 = .illegal .roundIndexAboveTen

/-! ## Issue, the host port, reset -/

/-- 30_encoding.md R88, 20_memory.md R64: a write of a legal word to CMD makes the step run exactly that command,
from the state with the write taken off the queue, CMD holding the word and DONE cleared. The second clause, on a
state made by `withFetchWord`, is the model's choice (log entry 11): no rule names that operation, which puts the
write at the head of the queue and makes the engine idle with RND = 0. -/
def Obligations.StepRunsTheDecodedCommand : Prop :=
  (∀ (s : State) (rest : List HostEvent) (w : Word) (i : Instr), s.phase = .idle → s.inbox = .write 0 w :: rest →
    decode w = .command i → step s = exec i { s with inbox := rest, cmd := w, done := false }) ∧
  (∀ (s : State) (nbits n : Nat) (i : Instr), decodeTableWord nbits n = some i →
    ∃ w, decode w = .command i ∧
      step (s.withFetchWord nbits n) = exec i { s with phase := .idle, rnd := 0, cmd := w, done := false })

/-- 30_encoding.md R85: an ILLEGAL word is not executed; it is recorded, and nothing else changes. -/
def Obligations.IllegalWordChangesNothingElse : Prop :=
  (∀ (s : State) (rest : List HostEvent) (w : Word) (why : IllegalWord), s.phase = .idle →
    s.inbox = .write 0 w :: rest → decode w = .illegal why →
    step s = .next { s with inbox := rest, cmd := w, done := false, res := .illegalCmd,
                            ferr := ferrAfter s .illegalCmd }) ∧
  decode 0#32 = .command .nop

/-- 20_memory.md R63: while the sequencer runs, an access presented has no step; each engine step goes on. -/
def Obligations.AccessHeldWhileRunning : Prop :=
  ∀ s : State, SequencerLegal s → s.phase ≠ .idle → ¬ ResetPresented s →
    ∃ t, step s = .next t ∧ SequencerLegal t ∧ t.inbox = s.inbox ∧ t.replies = s.replies

/-- 70_reset_and_hazards.md R284, 20_memory.md R63: a running ENC or DEC is back at IDLE after at most eleven
steps, with the accesses presented meanwhile still to be performed. -/
def Obligations.RunningCommandEnds : Prop :=
  ∀ s : State, SequencerLegal s → s.phase ≠ .idle → ¬ ResetPresented s →
    ∃ n ≤ 11, ∃ t : State, Host.Core.run core n s = .next t ∧ t.phase = .idle ∧ t.res = .ok ∧ t.done = true ∧
      t.inbox = s.inbox

/-- 00_scope.md R11, 60_exceptions.md R252: with nothing presented the idle engine holds all its state. -/
def Obligations.IdleEngineHoldsItsState : Prop :=
  ∀ s : State, s.phase = .idle → s.inbox = [] → step s = .next s

/-- 70_reset_and_hazards.md R270, R271: a reset presented takes effect in any state, abandoning a command in
progress; every register is then at its reset value, and the random port's stream stays where it was. That the
host's queue and the replies it has been given stay is the model's (log entry 3). -/
def Obligations.ResetEventClearsEveryRegister : Prop :=
  ∀ (s : State) (rest : List HostEvent), s.inbox = .reset :: rest →
    ∃ t, step s = .next t ∧ t.st = State.reset.st ∧ t.key = State.reset.key ∧ t.rk = State.reset.rk ∧
      t.kv = false ∧ t.bres = 0#8 ∧ t.m = State.reset.m ∧ t.mp = State.reset.mp ∧ t.sse = State.reset.sse ∧
      t.ssd = State.reset.ssd ∧ t.dmm = false ∧ t.p = State.reset.p ∧ t.cmd = 0#32 ∧ t.done = false ∧
      t.res = .ok ∧ t.ferr = .ok ∧ t.phase = .idle ∧ t.mode = .encrypt ∧ t.rnd = 0 ∧
      (∀ k, t.portWord k = s.portWord k) ∧ t.rndDrawn = s.rndDrawn ∧ t.inbox = rest ∧ t.replies = s.replies

/-- 10_state.md R34: after reset every register of R20 holds zero, and the constant words have their values. -/
def Obligations.ResetValues : Prop :=
  (∀ k : Fin 16, State.reset.st[k] = 0#8 ∧ State.reset.key[k] = 0#8) ∧
  (∀ (i : Fin 11) (k : Fin 16), State.reset.rk[i][k] = 0#8) ∧
  (∀ k : Fin 32, State.reset.m[k] = 0#8 ∧ State.reset.mp[k] = 0#8 ∧ State.reset.sse[k] = 0#8 ∧
    State.reset.ssd[k] = 0#8) ∧
  (∀ (i : Fin 16) (j : Fin 256), State.reset.p[i][j] = 0#12) ∧
  State.reset.bres = 0#8 ∧ State.reset.cmd = 0#32 ∧ State.reset.kv = false ∧ State.reset.dmm = false ∧
  State.reset.done = false ∧ State.reset.res = .ok ∧ State.reset.ferr = .ok ∧ State.reset.phase = .idle ∧
  State.reset.mode = .encrypt ∧ State.reset.rnd = 0 ∧
  windowWord State.reset 0x0C = some 0x44560001#32 ∧ windowWord State.reset 0x10 = some 0x0D010100#32 ∧
  windowWord State.reset 0x14 = some (param1Word Config.clamp Config.encOne Config.decT) ∧
  (∀ i : Fin 16, windowWord State.reset (0x180 + 4 * i.val) = some (cdtWindowWord Config.cdt i.val))

/-! ## The register window -/

/-- 20_memory.md R53 (with the offsets of R52): byte-array registers are packed into words little-endian. -/
def Obligations.ByteArraysLittleEndian : Prop :=
  ∀ s : State,
    (∀ w : Fin 4, HoldsBytes s (0x20 + 4 * w.val) s.st[4 * w.val] s.st[4 * w.val + 1] s.st[4 * w.val + 2]
      s.st[4 * w.val + 3]) ∧
    (∀ w : Fin 4, HoldsBytes s (0x30 + 4 * w.val) s.key[4 * w.val] s.key[4 * w.val + 1] s.key[4 * w.val + 2]
      s.key[4 * w.val + 3]) ∧
    (∀ (i : Fin 11) (w : Fin 4), HoldsBytes s (0x40 + 16 * i.val + 4 * w.val) s.rk[i][4 * w.val]
      s.rk[i][4 * w.val + 1] s.rk[i][4 * w.val + 2] s.rk[i][4 * w.val + 3]) ∧
    (∀ w : Fin 8, HoldsBytes s (0x100 + 4 * w.val) s.m[4 * w.val] s.m[4 * w.val + 1] s.m[4 * w.val + 2]
      s.m[4 * w.val + 3]) ∧
    (∀ w : Fin 8, HoldsBytes s (0x120 + 4 * w.val) s.mp[4 * w.val] s.mp[4 * w.val + 1] s.mp[4 * w.val + 2]
      s.mp[4 * w.val + 3]) ∧
    (∀ w : Fin 8, HoldsBytes s (0x140 + 4 * w.val) s.sse[4 * w.val] s.sse[4 * w.val + 1] s.sse[4 * w.val + 2]
      s.sse[4 * w.val + 3]) ∧
    (∀ w : Fin 8, HoldsBytes s (0x160 + 4 * w.val) s.ssd[4 * w.val] s.ssd[4 * w.val + 1] s.ssd[4 * w.val + 2]
      s.ssd[4 * w.val + 3])

/-- 20_memory.md R55: a polynomial word holds coefficient 2w in bits 15:0 and 2w + 1 in bits 31:16; bits 15:12 and
31:28 read as 0. -/
def Obligations.PolynomialWordLayout : Prop :=
  ∀ (s : State) (i : PReg) (w : Fin 128),
    ∃ v, windowWord s (0x2000 + 0x200 * i.val + 4 * w.val) = some v ∧
      v.extractLsb' 0 12 = s.p[i][2 * w.val] ∧ v.extractLsb' 12 4 = 0#4 ∧
      v.extractLsb' 16 12 = s.p[i][2 * w.val + 1] ∧ v.extractLsb' 28 4 = 0#4

/-- 10_state.md R31, R26, R32, 60_exceptions.md R241: the STATUS fields, BRES and CMD as the host reads them, and
the numbers of the result codes in RES and FERR. -/
def Obligations.StatusWordLayout : Prop :=
  ∀ s : State,
    (∃ v, windowWord s 0x04 = some v ∧ v.getLsbD 0 = s.done ∧ v.getLsbD 1 = s.kv ∧ v.getLsbD 2 = s.dmm ∧
      v.getLsbD 3 = false ∧ v.extractLsb' 4 4 = s.res.toBits ∧ v.extractLsb' 8 4 = s.ferr.toBits ∧
      v.extractLsb' 12 20 = 0#20) ∧
    windowWord s 0x08 = some (s.bres.setWidth 32) ∧ windowWord s 0x00 = some s.cmd ∧
    ResultCode.ok.toBits = 0#4 ∧ ResultCode.malformedInput.toBits = 1#4 ∧ ResultCode.illegalCmd.toBits = 2#4 ∧
    ResultCode.noSchedule.toBits = 3#4 ∧ ResultCode.badAccess.toBits = 4#4

/-- 10_state.md R33: the constant words, in every state. -/
def Obligations.ConstantWords : Prop :=
  ∀ s : State,
    windowWord s 0x0C = some 0x44560001#32 ∧
    (∃ v, windowWord s 0x10 = some v ∧ v.extractLsb' 0 16 = 256#16 ∧ v.extractLsb' 16 16 = 3329#16) ∧
    (∃ v, windowWord s 0x14 = some v ∧ (v.extractLsb' 0 8).toNat = Config.clamp ∧
      (v.extractLsb' 8 12).toNat = Config.encOne ∧ (v.extractLsb' 20 12).toNat = Config.decT) ∧
    param1Word 4 1665 1664 = 0x68068104#32 ∧
    (∀ i : Fin 16, ∃ v, windowWord s (0x180 + 4 * i.val) = some v ∧
      (i.val < Config.clamp → v.toNat = Config.cdtAt i.val) ∧ (Config.clamp ≤ i.val → v.toNat = 65536))

/-- 20_memory.md R69, R61: reading a mapped word gives the word and changes nothing. -/
def Obligations.MappedReadHasNoSideEffect : Prop :=
  ∀ (s : State) (rest : List HostEvent) (off : Nat), s.phase = .idle → s.inbox = .read off :: rest →
    ¬ BadOffset off → ∃ v, windowWord s off = some v ∧
      step s = .next { s with inbox := rest, replies := s.replies ++ [v] }

/-- 20_memory.md R57, R58, 60_exceptions.md R242: a bad access or a write to a read-only register changes nothing
but FERR; a read then returns 0; every other offset is readable. -/
def Obligations.BadAccessRecordsOnly : Prop :=
  (∀ (s : State) (rest : List HostEvent) (off : Nat), s.phase = .idle → s.inbox = .read off :: rest → BadOffset off →
    step s = .next { s with inbox := rest, replies := s.replies ++ [0#32], ferr := ferrAfter s .badAccess }) ∧
  (∀ (s : State) (rest : List HostEvent) (off : Nat) (v : Word), s.phase = .idle → s.inbox = .write off v :: rest →
    BadOffset off ∨ ReadOnlyOffset off →
    step s = .next { s with inbox := rest, ferr := ferrAfter s .badAccess }) ∧
  (∀ (s : State) (off : Nat), ¬ BadOffset off → ∃ v, windowWord s off = some v)

/-- 20_memory.md R69, R59, R61, 10_state.md R23: a write to ST, KEY or M stores its four bytes and nothing else,
but that a write to KEY clears KV. -/
def Obligations.DataWriteStoresItsBytes : Prop :=
  (∀ (s : State) (rest : List HostEvent) (w : Fin 4) (v : Word), s.phase = .idle →
    s.inbox = .write (0x20 + 4 * w.val) v :: rest →
    step s = .next { s with inbox := rest, st := withWord s.st w.val v }) ∧
  (∀ (s : State) (rest : List HostEvent) (w : Fin 4) (v : Word), s.phase = .idle →
    s.inbox = .write (0x30 + 4 * w.val) v :: rest →
    step s = .next { s with inbox := rest, key := withWord s.key w.val v, kv := false }) ∧
  (∀ (s : State) (rest : List HostEvent) (w : Fin 8) (v : Word), s.phase = .idle →
    s.inbox = .write (0x100 + 4 * w.val) v :: rest →
    step s = .next { s with inbox := rest, m := withWord s.m w.val v })

/-- 20_memory.md R60, R69: a polynomial word is stored when both halves are below Q; else neither half is, and
MALFORMED_INPUT is recorded. -/
def Obligations.PolynomialWordWrite : Prop :=
  ∀ (s : State) (rest : List HostEvent) (i : PReg) (w : Fin 128) (v : Word), s.phase = .idle →
    s.inbox = .write (0x2000 + 0x200 * i.val + 4 * w.val) v :: rest →
    ((v.extractLsb' 0 16).toNat < 3329 → (v.extractLsb' 16 16).toNat < 3329 →
      ∃ t, step s = .next t ∧ t = { s with inbox := rest, p := t.p } ∧ (∀ e : PReg, e ≠ i → t.p[e] = s.p[e]) ∧
        ∀ j : Fin 256, t.p[i][j] = if j.val = 2 * w.val then v.extractLsb' 0 12
          else if j.val = 2 * w.val + 1 then v.extractLsb' 16 12 else s.p[i][j]) ∧
    (3329 ≤ (v.extractLsb' 0 16).toNat ∨ 3329 ≤ (v.extractLsb' 16 16).toNat →
      step s = .next { s with inbox := rest, ferr := ferrAfter s .malformedInput })

/-- 20_memory.md R64: a read of ST, KEY, M or a polynomial word returns what the write before it stored. -/
def Obligations.ReadAfterWrite : Prop :=
  ∀ (s t : State) (rest : List HostEvent) (off : Nat) (v : Word), s.phase = .idle →
    s.inbox = .write off v :: .read off :: rest → ¬ BadOffset off → ¬ ReadOnlyOffset off → off ≠ 0 →
    (0x2000 ≤ off → v.toNat % 65536 < 3329 ∧ v.toNat / 65536 < 3329) →
    Host.Core.run core 2 s = .next t → t.replies = s.replies ++ [v] ∧ t.inbox = rest

/-! ## System, field and table commands -/

/-- 47_system.md R230 and R231: NOP and CLRERR, exactly, with their words; NOP also as a write of 0 to CMD. -/
def Obligations.SystemCommands : Prop :=
  ∀ s : State,
    exec .nop s = .next { s with res := .ok, done := true } ∧
    exec .clrerr s = .next { s with ferr := .ok, res := .ok, done := true } ∧
    (∀ rest, s.phase = .idle → s.inbox = .write 0 0#32 :: rest →
      step s = .next { s with inbox := rest, cmd := 0#32, res := .ok, done := true }) ∧
    decode 0#32 = .command .nop ∧ decode 1#32 = .command .clrerr ∧ decode 0x101#32 = .illegal .reservedBitSet

/-- 40_gf_tables.md R106, R107, R108: the three byte commands write BRES and nothing else; with the examples of
those rules. -/
def Obligations.ByteCommands : Prop :=
  (∀ (s : State) (a b : Byte), exec (.gfmul a b) s = .next { s with bres := gfMul a b, res := .ok, done := true }) ∧
  (∀ (s : State) (a : Byte), exec (.sbox a) s = .next { s with bres := sbox a, res := .ok, done := true }) ∧
  (∀ (s : State) (a : Byte), exec (.isbox a) s = .next { s with bres := isbox a, res := .ok, done := true }) ∧
  gfMul 0x57 0x83 = 0xC1#8 ∧ gfMul 0x57 0x13 = 0xFE#8 ∧ sbox 0x53 = 0xED#8 ∧ isbox 0xED = 0x53#8

/-- 40_gf_tables.md R101: GfMul is the product of GF(2)[x] reduced modulo x^8+x^4+x^3+x+1, with its laws. -/
def Obligations.GfMulIsTheFieldProduct : Prop :=
  (∀ a b : Byte, (Polynomial.X ^ 8 + Polynomial.X ^ 4 + Polynomial.X ^ 3 + Polynomial.X + 1 : Polynomial (ZMod 2)) ∣
    bytePoly a * bytePoly b - bytePoly (gfMul a b)) ∧
  (∀ a b : Byte, gfMul a b = gfMul b a) ∧ (∀ a b c : Byte, gfMul (gfMul a b) c = gfMul a (gfMul b c)) ∧
  (∀ a b c : Byte, gfMul a (b ^^^ c) = gfMul a b ^^^ gfMul a c) ∧
  (∀ a : Byte, gfMul a 0 = 0 ∧ gfMul 0 a = 0 ∧ gfMul a 1 = a) ∧
  (∀ a : Byte, a ≠ 0 → ∃! b : Byte, gfMul a b = 1) ∧
  (∀ a : Byte, gfMul a 2 = (if a.getLsbD 7 then (a <<< 1) ^^^ 0x1B#8 else a <<< 1) ∧ gfMul a 3 = gfMul a 2 ^^^ a) ∧
  (List.range 10).map doublings = [0x01, 0x02, 0x04, 0x08, 0x10, 0x20, 0x40, 0x80, 0x1B, 0x36]

/-- 40_gf_tables.md R103, R104: SBOX[b] is the affine map of the field inverse of b (of 0 for b = 0); the tables
invert each other, and neither is its own inverse. The contents and the affine definition of R103 are marked by the
spec as from general knowledge (log entry 19). -/
def Obligations.SubstitutionTables : Prop :=
  (∀ b : Byte, ∃ x : Byte, (b = 0 → x = 0) ∧ (b ≠ 0 → gfMul b x = 1) ∧ sbox b = affine x) ∧
  (∀ b : Byte, isbox (sbox b) = b) ∧ (∀ y : Byte, sbox (isbox y) = y) ∧ sbox 0 = 0x63#8 ∧ sbox (sbox 0) = 0xFB#8 ∧
  isbox (isbox 0x63) ≠ 0x63#8

/-! ## AES commands -/

/-- 41_aes_round.md R121, R122: SUBB and ISUBB. -/
def Obligations.SubstitutionCommands : Prop :=
  decode 0x12#32 = .command .subb ∧ decode 0x13#32 = .command .isubb ∧
  ∀ s : State,
    exec .subb s = .next { s with st := Vector.ofFn fun k : Fin 16 => sbox s.st[k], res := .ok, done := true } ∧
    exec .isubb s = .next { s with st := Vector.ofFn fun k : Fin 16 => isbox s.st[k], res := .ok, done := true }

/-- 41_aes_round.md R123, R124: SHROW and ISHROW, by the lists of source indices those rules give. -/
def Obligations.RowShiftCommands : Prop :=
  decode 0x14#32 = .command .shrow ∧ decode 0x15#32 = .command .ishrow ∧
  ∀ s : State,
    exec .shrow s = .next { s with
      st := #v[s.st[0], s.st[5], s.st[10], s.st[15], s.st[4], s.st[9], s.st[14], s.st[3], s.st[8], s.st[13], s.st[2],
        s.st[7], s.st[12], s.st[1], s.st[6], s.st[11]], res := .ok, done := true } ∧
    exec .ishrow s = .next { s with
      st := #v[s.st[0], s.st[13], s.st[10], s.st[7], s.st[4], s.st[1], s.st[14], s.st[11], s.st[8], s.st[5], s.st[2],
        s.st[15], s.st[12], s.st[9], s.st[6], s.st[3]], res := .ok, done := true }

/-- 41_aes_round.md R125, R126: MIXC and IMIXC, each column by the rows of its matrix. -/
def Obligations.ColumnMixCommands : Prop :=
  decode 0x16#32 = .command .mixc ∧ decode 0x17#32 = .command .imixc ∧
  ∀ s : State,
    (∃ t, exec .mixc s = .next t ∧ t = { s with st := t.st, res := .ok, done := true } ∧ ∀ c : Fin 4,
      let a0 := s.st[4 * c.val]; let a1 := s.st[4 * c.val + 1]; let a2 := s.st[4 * c.val + 2]
      let a3 := s.st[4 * c.val + 3]
      t.st[4 * c.val] = gfMul a0 2 ^^^ gfMul a1 3 ^^^ a2 ^^^ a3 ∧
      t.st[4 * c.val + 1] = a0 ^^^ gfMul a1 2 ^^^ gfMul a2 3 ^^^ a3 ∧
      t.st[4 * c.val + 2] = a0 ^^^ a1 ^^^ gfMul a2 2 ^^^ gfMul a3 3 ∧
      t.st[4 * c.val + 3] = gfMul a0 3 ^^^ a1 ^^^ a2 ^^^ gfMul a3 2) ∧
    (∃ t, exec .imixc s = .next t ∧ t = { s with st := t.st, res := .ok, done := true } ∧ ∀ c : Fin 4,
      let a0 := s.st[4 * c.val]; let a1 := s.st[4 * c.val + 1]; let a2 := s.st[4 * c.val + 2]
      let a3 := s.st[4 * c.val + 3]
      t.st[4 * c.val] = gfMul a0 14 ^^^ gfMul a1 11 ^^^ gfMul a2 13 ^^^ gfMul a3 9 ∧
      t.st[4 * c.val + 1] = gfMul a0 9 ^^^ gfMul a1 14 ^^^ gfMul a2 11 ^^^ gfMul a3 13 ∧
      t.st[4 * c.val + 2] = gfMul a0 13 ^^^ gfMul a1 9 ^^^ gfMul a2 14 ^^^ gfMul a3 11 ∧
      t.st[4 * c.val + 3] = gfMul a0 11 ^^^ gfMul a1 13 ^^^ gfMul a2 9 ^^^ gfMul a3 14)

/-- 41_aes_round.md R127: ARK by its explicit index; NO_SCHEDULE while KV = 0; ILLEGAL_CMD above index 10; twice
the same index restores ST. -/
def Obligations.ArkCommand : Prop :=
  (∀ (s : State) (r : Fin 11), s.kv = true →
    exec (.ark (BitVec.ofNat 4 r.val)) s =
      .next { s with st := Vector.ofFn fun k : Fin 16 => s.st[k] ^^^ s.rk[r][k], res := .ok, done := true }) ∧
  (∀ (s : State) (r : Fin 11), s.kv = false →
    exec (.ark (BitVec.ofNat 4 r.val)) s =
      .next { s with res := .noSchedule, ferr := ferrAfter s .noSchedule, done := false }) ∧
  (∀ (s : State) (r : BitVec 4), 10 < r.toNat →
    exec (.ark r) s = .next { s with res := .illegalCmd, ferr := ferrAfter s .illegalCmd, done := false }) ∧
  (∀ r : BitVec 4, decode (BitVec.ofNat 32 (0x11 + r.toNat * 256)) =
    if 10 < r.toNat then .illegal .roundIndexAboveTen else .command (.ark r)) ∧
  (∀ (s t u : State) (r : Fin 11), s.kv = true → exec (.ark (BitVec.ofNat 4 r.val)) s = .next t →
    exec (.ark (BitVec.ofNat 4 r.val)) t = .next u → u.st = s.st)

/-- 41_aes_round.md R128: the round transforms are bijections with the stated inverses; which pairs commute; and
how InvMixColumns passes AddRoundKey, with which it does not commute. -/
def Obligations.RoundTransformLaws : Prop :=
  (∀ b : Block, invSubBytes (subBytes b) = b ∧ subBytes (invSubBytes b) = b) ∧
  (∀ b : Block, invShiftRows (shiftRows b) = b ∧ shiftRows (invShiftRows b) = b) ∧
  (∀ b : Block, invMixColumns (mixColumns b) = b ∧ mixColumns (invMixColumns b) = b) ∧
  (∀ b k : Block, addRoundKey (addRoundKey b k) k = b) ∧
  (∀ b : Block, subBytes (shiftRows b) = shiftRows (subBytes b) ∧
    invSubBytes (invShiftRows b) = invShiftRows (invSubBytes b)) ∧
  (∀ b k : Block, invMixColumns (addRoundKey b k) = addRoundKey (invMixColumns b) (invMixColumns k)) ∧
  (∃ b k : Block, invMixColumns (addRoundKey b k) ≠ addRoundKey (invMixColumns b) k)

/-- 42_key_schedule.md R140, R141, R142, R143: KEYEXP writes the schedule of the recurrence and sets KV. -/
def Obligations.KeyexpCommand : Prop :=
  ∀ s : State, ∃ t, exec .keyexp s = .next t ∧ t = { s with rk := t.rk, kv := true, res := .ok, done := true } ∧
    t.rk[0] = s.key ∧
    ∀ (r : Fin 10) (j : Fin 4),
      t.rk[r.val + 1][j.val] = t.rk[r.val][j.val] ^^^ scheduleByte (r.val + 1) t.rk[r.val] j ∧
      t.rk[r.val + 1][4 + j.val] = t.rk[r.val][4 + j.val] ^^^ t.rk[r.val + 1][j.val] ∧
      t.rk[r.val + 1][8 + j.val] = t.rk[r.val][8 + j.val] ^^^ t.rk[r.val + 1][4 + j.val] ∧
      t.rk[r.val + 1][12 + j.val] = t.rk[r.val][12 + j.val] ^^^ t.rk[r.val + 1][8 + j.val]

/-- 42_key_schedule.md R144: the recurrence runs backwards, so every round key determines the root key. -/
def Obligations.EveryRoundKeyDeterminesTheKey : Prop :=
  ∀ (k l : Block) (r : Fin 11), (expand k)[r] = (expand l)[r] → k = l

/-- 43_aes_engine.md R153: ENC by the sequencer is Encrypt of ST under RK; NO_SCHEDULE while KV = 0. -/
def Obligations.EncCommand : Prop :=
  (∀ s : State, s.kv = true →
    exec .enc s = .next { s with st := encrypt s.st s.rk, phase := .idle, mode := .encrypt, rnd := 0,
                                 res := .ok, done := true }) ∧
  (∀ s : State, s.kv = false →
    exec .enc s = .next { s with res := .noSchedule, ferr := ferrAfter s .noSchedule, done := false })

/-- 43_aes_engine.md R154: DEC by the sequencer is Decrypt of ST under RK; NO_SCHEDULE while KV = 0. -/
def Obligations.DecCommand : Prop :=
  (∀ s : State, s.kv = true →
    exec .dec s = .next { s with st := decrypt s.st s.rk, phase := .idle, mode := .decrypt, rnd := 0,
                                 res := .ok, done := true }) ∧
  (∀ s : State, s.kv = false →
    exec .dec s = .next { s with res := .noSchedule, ferr := ferrAfter s .noSchedule, done := false })

/-- 43_aes_engine.md R155: decryption undoes encryption and encryption undoes decryption, for every block, every
key, and any eleven round keys. -/
def Obligations.CipherRoundTrip : Prop :=
  (∀ (b : Block) (sched : Schedule), decrypt (encrypt b sched) sched = b ∧ encrypt (decrypt b sched) sched = b) ∧
  (∀ b k : Block, decrypt (encrypt b (expand k)) (expand k) = b ∧ encrypt (decrypt b (expand k)) (expand k) = b)

/-- 43_aes_engine.md R154: "`ENC; DEC` and `DEC; ENC` each leave ST as it was", and nothing else but the flags
and the sequencer's MODE moves. -/
def Obligations.EncDecRestoreTheState : Prop :=
  ∀ s : State, s.kv = true →
    execAll [.enc, .dec] s = .next { s with phase := .idle, mode := .decrypt, rnd := 0, res := .ok, done := true } ∧
    execAll [.dec, .enc] s = .next { s with phase := .idle, mode := .encrypt, rnd := 0, res := .ok, done := true }

/-- 43_aes_engine.md R153, R154: ENC and DEC are exactly their sequences of primitive commands (but for the
sequencer's MODE, which the primitive commands do not touch). -/
def Obligations.CipherIsItsPrimitiveCommands : Prop :=
  (∀ s t : State, s.kv = true → s.phase = .idle → s.rnd = 0 → execAll encCommands s = .next t →
    exec .enc s = .next { t with mode := .encrypt }) ∧
  (∀ s t : State, s.kv = true → s.phase = .idle → s.rnd = 0 → execAll decCommands s = .next t →
    exec .dec s = .next { t with mode := .decrypt }) ∧
  (∀ s : State, s.kv = true → (∃ t, execAll encCommands s = .next t) ∧ ∃ t, execAll decCommands s = .next t)

/-- 43_aes_engine.md R152, R156: the rows of the sequencer's table, as steps of the machine. -/
def Obligations.SequencerRows : Prop :=
  ∀ s : State, ¬ ResetPresented s →
    (s.phase = .initial → s.mode = .encrypt → s.rnd = 0 →
      step s = .next { s with st := addRoundKey s.st s.rk[0], phase := .round, rnd := 1 }) ∧
    (∀ r : Fin 11, s.phase = .round → s.mode = .encrypt → s.rnd = r → 1 ≤ r.val → r.val ≤ 8 →
      step s = .next { s with st := addRoundKey (mixColumns (shiftRows (subBytes s.st))) s.rk[r], rnd := r + 1 }) ∧
    (s.phase = .round → s.mode = .encrypt → s.rnd = 9 →
      step s = .next { s with st := addRoundKey (mixColumns (shiftRows (subBytes s.st))) s.rk[9], phase := .final,
                              rnd := 10 }) ∧
    (s.phase = .final → s.mode = .encrypt → s.rnd = 10 →
      step s = .next { s with st := addRoundKey (shiftRows (subBytes s.st)) s.rk[10], phase := .idle, rnd := 0,
                              res := .ok, done := true }) ∧
    (s.phase = .initial → s.mode = .decrypt → s.rnd = 10 →
      step s = .next { s with st := addRoundKey s.st s.rk[10], phase := .round, rnd := 9 }) ∧
    (∀ r : Fin 11, s.phase = .round → s.mode = .decrypt → s.rnd = r → 2 ≤ r.val → r.val ≤ 9 →
      step s = .next { s with st := invMixColumns (addRoundKey (invSubBytes (invShiftRows s.st)) s.rk[r]),
                              rnd := r - 1 }) ∧
    (s.phase = .round → s.mode = .decrypt → s.rnd = 1 →
      step s = .next { s with st := invMixColumns (addRoundKey (invSubBytes (invShiftRows s.st)) s.rk[1]),
                              phase := .final, rnd := 0 }) ∧
    (s.phase = .final → s.mode = .decrypt → s.rnd = 0 →
      step s = .next { s with st := addRoundKey (invSubBytes (invShiftRows s.st)) s.rk[0], phase := .idle, rnd := 0,
                              res := .ok, done := true })

/-- The model's choice (log entry 9): a sequencer standing in no row of the table stops the machine. -/
def Obligations.SequencerOffItsTableStops : Prop :=
  ∀ s : State, ¬ SequencerLegal s → s.phase ≠ .idle → ¬ ResetPresented s → step s = .fault .sequencerStuck

/-! ## Ring commands -/

/-- 44_poly_ring.md R172, R173: PADD and PSUB, coefficient by coefficient; and subtraction undoes addition. -/
def Obligations.AddSubCommands : Prop :=
  (∀ (s : State) (d a b : PReg),
    exec (.padd d a b) s = .next { s with
      p := s.p.set d.val (Vector.ofFn fun j : Fin 256 =>
        BitVec.ofNat 12 ((s.p[a][j].toNat + s.p[b][j].toNat) % 3329)) d.isLt,
      res := .ok, done := true } ∧
    exec (.psub d a b) s = .next { s with
      p := s.p.set d.val (Vector.ofFn fun j : Fin 256 =>
        BitVec.ofNat 12 ((s.p[a][j].toNat + 6658 - s.p[b][j].toNat) % 3329)) d.isLt,
      res := .ok, done := true }) ∧
  (∀ f g : Poly, PolyInRange f → polySub (polyAdd f g) g = f)

/-- 44_poly_ring.md R174, R177: PMUL writes the two sums of R174 mod Q to its destination and nothing else, the
sources read in full first. -/
def Obligations.MulCommand : Prop :=
  ∀ (s : State) (d a b : PReg), ∃ t, exec (.pmul d a b) s = .next t ∧
    t = { s with p := t.p, res := .ok, done := true } ∧ (∀ e : PReg, e ≠ d → t.p[e] = s.p[e]) ∧
    ∀ k : Fin 256, t.p[d][k].toNat < 3329 ∧
      ((t.p[d][k].toNat : Nat) : ZMod 3329) =
        (∑ i : Fin 256, ∑ j : Fin 256,
          if i.val + j.val = k.val then ((s.p[a][i].toNat * s.p[b][j].toNat : Nat) : ZMod 3329) else 0) -
        (∑ i : Fin 256, ∑ j : Fin 256,
          if i.val + j.val = k.val + 256 then ((s.p[a][i].toNat * s.p[b][j].toNat : Nat) : ZMod 3329) else 0)

/-- 44_poly_ring.md R170, R174: PolyAdd, PolySub and PolyMul are the operations of Z_Q[x]/(x^256 + 1). -/
def Obligations.RingOperationsAreTheRings : Prop :=
  ∀ f g : Poly,
    ringPoly (polyAdd f g) = ringPoly f + ringPoly g ∧ ringPoly (polySub f g) = ringPoly f - ringPoly g ∧
    (Polynomial.X ^ 256 + 1 : Polynomial (ZMod 3329)) ∣ ringPoly f * ringPoly g - ringPoly (polyMul f g) ∧
    PolyInRange (polyAdd f g) ∧ PolyInRange (polySub f g) ∧ PolyInRange (polyMul f g)

/-- 44_poly_ring.md R174: PolyMul is commutative and associative, distributes over PolyAdd, and has unit 1; and
multiplying by x rotates the coefficients up, negating the one that wraps. -/
def Obligations.MulLaws : Prop :=
  (∀ f g : Poly, polyMul f g = polyMul g f) ∧
  (∀ f g h : Poly, polyMul (polyMul f g) h = polyMul f (polyMul g h)) ∧
  (∀ f g h : Poly, polyMul f (polyAdd g h) = polyAdd (polyMul f g) (polyMul f h)) ∧
  (∀ f : Poly, PolyInRange f → polyMul f (zeroPoly.set 0 1#12) = f) ∧
  (∀ f : Poly, PolyInRange f → ∀ k : Fin 256, (polyMul f (zeroPoly.set 1 1#12))[k].toNat =
    if k.val = 0 then (3329 - f[255].toNat) % 3329 else (f.toList.getD (k.val - 1) 0).toNat)

/-- 44_poly_ring.md R175, R176, 10_state.md R30: PENC and PDEC bit by bit; a mismatch is no error; and
`Decode(Encode(m)) = m` for every message, in every configuration R9 allows. -/
def Obligations.MessageCommands : Prop :=
  (∀ (s : State) (d : PReg), ∃ t, exec (.penc d) s = .next t ∧ t = { s with p := t.p, res := .ok, done := true } ∧
    (∀ e : PReg, e ≠ d → t.p[e] = s.p[e]) ∧
    ∀ j : Fin 256, t.p[d][j].toNat = if s.m[j.val / 8].getLsbD (j.val % 8) then Config.encOne else 0) ∧
  (∀ (s : State) (a : PReg), ∃ t, exec (.pdec a) s = .next t ∧
    t = { s with mp := t.mp, dmm := t.dmm, res := .ok, done := true } ∧ (t.dmm = true ↔ t.mp ≠ s.m) ∧
    ∀ j : Fin 256, t.mp[j.val / 8].getLsbD (j.val % 8) = decide (Config.decT < s.p[a][j].toNat)) ∧
  (∀ m : Bytes32, decodeMessage Config.decT (encodeMessage Config.encOne m) = m)

/-! ## Sampler commands -/

/-- 45_sampler.md R191, R194, R195, R196: what PSAMPU, PSAMPN and MSAMP make of the words the port returns. -/
def Obligations.SamplerCommands : Prop :=
  (∀ (s : State) (d : PReg),
    exec (.psampu d) s = .next { s with
      p := s.p.set d.val (Vector.ofFn fun j : Fin 256 => BitVec.ofNat 12 ((s.portWord j.val).toNat % 3329)) d.isLt,
      rndDrawn := s.rndDrawn + 256, rndSupplied := s.rndSupplied.drop 256, res := .ok, done := true } ∧
    exec (.psampn d) s = .next { s with
      p := s.p.set d.val (Vector.ofFn fun j : Fin 256 => sampleNoise Config.cdt (s.portWord j.val)) d.isLt,
      rndDrawn := s.rndDrawn + 256, rndSupplied := s.rndSupplied.drop 256, res := .ok, done := true }) ∧
  (∀ s : State, ∃ t, exec .msamp s = .next t ∧
    t = { s with m := t.m, rndDrawn := s.rndDrawn + 8, rndSupplied := s.rndSupplied.drop 8, res := .ok,
                 done := true } ∧
    ∀ i : Fin 8, windowWord t (0x100 + 4 * i.val) = some (s.portWord i.val))

/-- 45_sampler.md R192: the noise value for a table R9 allows: its magnitude k is the number of entries
at or below t, which is the least index with t < CDT[k], or c; its sign is bit 16; bits 31:17 are ignored; it lies in [−c, c]. -/
def Obligations.NoiseValue : Prop :=
  ∀ (cdt : List Nat) (w : Word), cdt.length ≤ 16 → cdt.Pairwise (· ≤ ·) →
    ∃ k ≤ cdt.length, k = (cdt.filter fun entry => decide (entry ≤ (w.extractLsb' 0 16).toNat)).length ∧
      (∀ i, i < k → cdt.getD i 0 ≤ (w.extractLsb' 0 16).toNat) ∧
      (k < cdt.length → (w.extractLsb' 0 16).toNat < cdt.getD k 0) ∧
      (sampleNoise cdt w).toNat = (if k = 0 ∨ w.getLsbD 16 = false then k else 3329 - k)

/-- 45_sampler.md R197: how many words each command consumes, strictly in order; a command that ends in an error
consumes none. -/
def Obligations.WordsConsumed : Prop :=
  ∀ (i : Instr) (s t : State), exec i s = .next t →
    t.rndDrawn = s.rndDrawn + wordsDrawn i ∧ t.rndSupplied = s.rndSupplied.drop (wordsDrawn i) ∧
    (∀ k, t.portWord k = s.portWord (wordsDrawn i + k)) ∧ (t.res ≠ .ok → wordsDrawn i = 0)

/-! ## KEM commands -/

/-- 46_kem.md R210, R212: KHASH hashes the 1056 bytes Ser(u), Ser(v), M or MP into SSE or SSD. -/
def Obligations.HashCommand : Prop :=
  ∀ (s : State) (a b : PReg), ∃ x y : List Byte, x.length = 1056 ∧ y.length = 1056 ∧
    (∀ j : Fin 256,
      (x.getD (2 * j.val) 0).toNat + 256 * (x.getD (2 * j.val + 1) 0).toNat = s.p[a][j].toNat ∧
      (x.getD (512 + 2 * j.val) 0).toNat + 256 * (x.getD (512 + 2 * j.val + 1) 0).toNat = s.p[b][j].toNat) ∧
    (∀ i : Fin 32, x.getD (1024 + i.val) 0 = s.m[i] ∧ y.getD (1024 + i.val) 0 = s.mp[i]) ∧
    x.take 1024 = y.take 1024 ∧
    exec (.khash .encapsulation a b) s = .next { s with sse := Config.hash256 x, res := .ok, done := true } ∧
    exec (.khash .decapsulation a b) s = .next { s with ssd := Config.hash256 y, res := .ok, done := true }

/-- 46_kem.md R213: KEYGEN is its five primitive commands, and completes. -/
def Obligations.KeygenIsItsPrimitives : Prop :=
  ∀ s : State, exec .keygen s = execAll [.psampu 0, .psampu 1, .psampn 3, .pmul 2 0 1, .padd 2 2 3] s ∧
    ∃ t, exec .keygen s = .next t ∧
      t = { s with p := t.p, rndDrawn := s.rndDrawn + 768, rndSupplied := s.rndSupplied.drop 768, res := .ok,
                   done := true } ∧
      (∀ j : Fin 256, t.p[0][j].toNat = (s.portWord j.val).toNat % 3329 ∧
        t.p[1][j].toNat = (s.portWord (256 + j.val)).toNat % 3329 ∧
        t.p[3][j] = sampleNoise Config.cdt (s.portWord (512 + j.val))) ∧
      t.p[2] = polyAdd (polyMul t.p[0] t.p[1]) t.p[3] ∧
      ∀ e : PReg, 3 < e.val → t.p[e] = s.p[e]

/-- 46_kem.md R214: ENCAPS is its eleven primitive commands, and completes. -/
def Obligations.EncapsIsItsPrimitives : Prop :=
  ∀ s : State,
    exec .encaps s = execAll [.psampu 4, .psampn 5, .psampn 6, .msamp, .penc 7, .pmul 8 0 4, .padd 8 8 5, .pmul 9 2 4,
      .padd 9 9 7, .padd 9 9 6, .khash .encapsulation 8 9] s ∧
    ∃ t, exec .encaps s = .next t ∧
      t = { s with p := t.p, m := t.m, sse := t.sse, rndDrawn := s.rndDrawn + 776,
                   rndSupplied := s.rndSupplied.drop 776, res := .ok, done := true } ∧
      t.p[7] = encodeMessage Config.encOne t.m ∧
      t.p[8] = polyAdd (polyMul s.p[0] t.p[4]) t.p[5] ∧
      t.p[9] = polyAdd (polyAdd (polyMul s.p[2] t.p[4]) t.p[7]) t.p[6] ∧
      t.sse = Config.hash256 (hashInput t.p[8] t.p[9] t.m) ∧
      ∀ e : PReg, e.val < 4 ∨ 9 < e.val → t.p[e] = s.p[e]

/-- 46_kem.md R215, 60_exceptions.md R246: DECAPS is its four primitive commands, and completes whether or not the
decoded message is M. -/
def Obligations.DecapsIsItsPrimitives : Prop :=
  ∀ s : State,
    exec .decaps s = execAll [.pmul 10 8 1, .psub 11 9 10, .pdec 11, .khash .decapsulation 8 9] s ∧
    ∃ t, exec .decaps s = .next t ∧
      t = { s with p := t.p, mp := t.mp, dmm := t.dmm, ssd := t.ssd, res := .ok, done := true } ∧
      t.p[10] = polyMul s.p[8] s.p[1] ∧ t.p[11] = polySub s.p[9] t.p[10] ∧
      t.mp = decodeMessage Config.decT t.p[11] ∧ (t.dmm = true ↔ t.mp ≠ s.m) ∧
      t.ssd = Config.hash256 (hashInput s.p[8] s.p[9] t.mp) ∧
      ∀ e : PReg, e.val ≠ 10 → e.val ≠ 11 → t.p[e] = s.p[e]

/-- 46_kem.md R218: what DECAPS recovers after KEYGEN and ENCAPS on one engine, for every word sequence and every
configuration: v − u·s is Encode(m) plus the error polynomial e·r + e2 − e1·s, MP = M exactly when each coefficient
stays on its side of DEC_T, and the two secrets are the hashes of M and of MP with the same u and v. -/
def Obligations.DecapsulationAlgebra : Prop :=
  ∀ s : State, ∃ t, execAll [.keygen, .encaps, .decaps] s = .next t ∧
    t.p[11] = polyAdd (encodeMessage Config.encOne t.m) (errorPoly t) ∧
    (t.mp = t.m ↔ ∀ j : Fin 256, (Config.decT < t.p[11][j].toNat ↔
      Config.decT < (encodeMessage Config.encOne t.m)[j].toNat)) ∧
    (t.dmm = true ↔ t.mp ≠ t.m) ∧ t.sse = Config.hash256 (hashInput t.p[8] t.p[9] t.m) ∧
    t.ssd = Config.hash256 (hashInput t.p[8] t.p[9] t.mp)

/-- 46_kem.md R216: SS2KEY copies the first sixteen bytes of the chosen secret to KEY and clears KV. -/
def Obligations.SecretToKeyCommand : Prop :=
  ∀ s : State,
    exec (.ss2key .encapsulation) s = .next { s with
      key := Vector.ofFn fun k : Fin 16 => s.sse[k.val], kv := false, res := .ok, done := true } ∧
    exec (.ss2key .decapsulation) s = .next { s with
      key := Vector.ofFn fun k : Fin 16 => s.ssd[k.val], kv := false, res := .ok, done := true }

/-! ## The whole machine -/

/-- 10_state.md R24, R27, R35, R36, R30: every step keeps the invariant, from every state that has it. -/
def Obligations.EveryStepKeepsInv : Prop :=
  ∀ s t : State, Inv s → step s = .next t → Inv t

/-- 10_state.md R34: the state after reset has the invariant. -/
def Obligations.ResetHasInv : Prop := Inv State.reset

/-- 70_reset_and_hazards.md R284, 47_system.md R232: every command ends, in every state, and a step from a legal
sequencer never stops the machine. -/
def Obligations.EveryCommandEnds : Prop :=
  (∀ (i : Instr) (s : State), ∃ t, exec i s = .next t) ∧ (∀ s : State, SequencerLegal s → ∃ t, step s = .next t)

/-- 10_state.md R20: a register changes only by the commands the column "written by commands" names for it: FERR by
an error event that finds it 0, or by CLRERR; DONE and RES by every command, DONE set exactly with RES 0. No command
moves CMD, the host's queue or replies. -/
def Obligations.RegistersWrittenByTheirCommands : Prop :=
  ∀ (i : Instr) (s t : State), exec i s = .next t →
    (t.st ≠ s.st → i ∈ [.subb, .isubb, .shrow, .ishrow, .mixc, .imixc, .enc, .dec] ∨ ∃ r, i = .ark r) ∧
    (t.key ≠ s.key → ∃ sel, i = .ss2key sel) ∧
    (t.rk ≠ s.rk → i = .keyexp) ∧
    (t.kv ≠ s.kv → i = .keyexp ∧ t.kv = true ∨ (∃ sel, i = .ss2key sel) ∧ t.kv = false) ∧
    (t.bres ≠ s.bres → (∃ a b, i = .gfmul a b) ∨ (∃ a, i = .sbox a) ∨ ∃ a, i = .isbox a) ∧
    (t.m ≠ s.m → i = .msamp ∨ i = .encaps) ∧
    (t.mp ≠ s.mp ∨ t.dmm ≠ s.dmm → (∃ a, i = .pdec a) ∨ i = .decaps) ∧
    (t.sse ≠ s.sse → (∃ a b, i = .khash .encapsulation a b) ∨ i = .encaps) ∧
    (t.ssd ≠ s.ssd → (∃ a b, i = .khash .decapsulation a b) ∨ i = .decaps) ∧
    (t.p ≠ s.p → i ∈ [.keygen, .encaps, .decaps] ∨ (∃ d a b, i = .padd d a b ∨ i = .psub d a b ∨ i = .pmul d a b) ∨
      ∃ d, i = .psampu d ∨ i = .psampn d ∨ i = .penc d) ∧
    (t.phase ≠ s.phase ∨ t.mode ≠ s.mode ∨ t.rnd ≠ s.rnd → i = .enc ∨ i = .dec) ∧
    (t.ferr ≠ s.ferr → (i = .clrerr ∧ t.ferr = .ok) ∨ (s.ferr = .ok ∧ t.res ≠ .ok ∧ t.ferr = t.res)) ∧
    (t.done = true ↔ t.res = .ok) ∧
    t.cmd = s.cmd ∧ t.inbox = s.inbox ∧ t.replies = s.replies

/-- 60_exceptions.md R242, 47_system.md R231: once FERR holds a code, a step keeps it, but for a reset and for
CLRERR. -/
def Obligations.FirstErrorIsKept : Prop :=
  ∀ s t : State, s.ferr ≠ .ok → step s = .next t →
    t.ferr = s.ferr ∨ (t.ferr = .ok ∧ (ResetPresented s ∨ ∃ rest, s.inbox = .write 0 1#32 :: rest))

/-- 60_exceptions.md R245, R242: a command that ends in an error has changed nothing but the record of the error. -/
def Obligations.ErrorsArePrecise : Prop :=
  ∀ (i : Instr) (s t : State), exec i s = .next t → t.res ≠ .ok →
    t = { s with res := t.res, ferr := ferrAfter s t.res, done := false }

/-- 10_state.md R30: DONE and RES, RND, BRES and DMM are no inputs of a command: from two states that differ only
there (and in CMD, MODE, PHASE and the host's queue) it leaves the same data registers. -/
def Obligations.FlagsAreNoInputs : Prop :=
  ∀ (i : Instr) (s t u v : State),
    t = { s with bres := t.bres, dmm := t.dmm, cmd := t.cmd, done := t.done, res := t.res, ferr := t.ferr,
                 phase := t.phase, mode := t.mode, rnd := t.rnd, inbox := t.inbox, replies := t.replies } →
    exec i s = .next u → exec i t = .next v →
    u.st = v.st ∧ u.key = v.key ∧ u.rk = v.rk ∧ u.kv = v.kv ∧ u.m = v.m ∧ u.mp = v.mp ∧ u.sse = v.sse ∧
      u.ssd = v.ssd ∧ u.p = v.p ∧ u.res = v.res ∧ u.done = v.done ∧ u.rndDrawn = v.rndDrawn ∧
      u.rndSupplied = v.rndSupplied
end

