-- ==== Sys2Proof/Laws/Config.lean ====
section
/-! SUPPORT. The constraints of 00_scope.md R9, as the configuration meets them whatever the free values are. -/

namespace Sys2Proof.Laws

theorem clamp_pos : 1 ≤ Config.clamp := by unfold Config.clamp; omega

theorem clamp_le : Config.clamp ≤ 16 := by unfold Config.clamp; omega

theorem decT_lt_encOne : Config.decT < Config.encOne := by unfold Config.encOne; omega

theorem encOne_lt : Config.encOne < 3329 := by
  have h : Config.decT < 3328 := Nat.mod_lt _ (by decide)
  have := Nat.mod_lt Config.encOneRaw (show 0 < 3329 - 1 - Config.decT by omega)
  unfold Config.encOne ringQ; omega

theorem cdtAt_le (i : Nat) : Config.cdtAt i ≤ 65536 := by
  induction i with
  | zero => simp [Config.cdtAt]
  | succ n ih => simp [Config.cdtAt, ih]

theorem cdtAt_le_succ (i : Nat) : Config.cdtAt i ≤ Config.cdtAt (i + 1) := by simp [Config.cdtAt]

theorem cdtAt_mono {i j : Nat} (h : i ≤ j) : Config.cdtAt i ≤ Config.cdtAt j := monotone_nat_of_le_succ cdtAt_le_succ h

theorem cdt_length : Config.cdt.length = Config.clamp := by simp [Config.cdt]

theorem cdt_pairwise : Config.cdt.Pairwise (· ≤ ·) := by
  rw [Config.cdt, List.pairwise_map]
  exact List.pairwise_lt_range.imp fun h => cdtAt_mono (Nat.le_of_lt h)

theorem cdt_getD_lt {i : Nat} (h : i < Config.clamp) (d : Nat) : Config.cdt.getD i d = Config.cdtAt i := by
  simp [Config.cdt, List.getD, h]

theorem cdt_getD_ge {i : Nat} (h : Config.clamp ≤ i) (d : Nat) : Config.cdt.getD i d = d := by
  simp [Config.cdt, List.getD, h]

end Sys2Proof.Laws
end

