-- ==== Sys2Proof/Laws/Encoding.lean ====
section
/-! SUPPORT. The bits and the fields of a packed command word, and the match of a packed word with a row. -/

namespace Sys2Proof.Laws

/-- A packed word as a number, when its fields stay in their places (formats R, P3, P1, H, S, N). -/
theorem packFields_toNat_nibbles (opc f8 f12 f16 : Nat) (h0 : opc < 256) (h8 : f8 < 16) (h12 : f12 < 16)
    (h16 : f16 < 16) :
    (packFields opc f8 f12 f16).toNat = opc + f8 * 2 ^ 8 + f12 * 2 ^ 12 + f16 * 2 ^ 16 := by
  simp only [packFields, BitVec.toNat_ofNat]; omega

/-- A packed word as a number, when its operands are bytes (formats B, B1). -/
theorem packFields_toNat_bytes (opc f8 f16 : Nat) (h0 : opc < 256) (h8 : f8 < 256) (h16 : f16 < 256) :
    (packFields opc f8 0 f16).toNat = opc + f8 * 2 ^ 8 + f16 * 2 ^ 16 := by
  simp only [packFields, BitVec.toNat_ofNat]; omega

/-- The bits of a number made of a low part and a high part. -/
theorem testBit_low_high (lo hi k i : Nat) (h : lo < 2 ^ k) :
    (lo + hi * 2 ^ k).testBit i = if i < k then lo.testBit i else hi.testBit (i - k) := by
  rw [Nat.add_comm, Nat.mul_comm]; exact Nat.testBit_two_pow_mul_add hi h i

/-- The bits of a packed word whose fields are nibbles. -/
theorem packFields_bit_nibbles (opc f8 f12 f16 i : Nat) (h0 : opc < 256) (h8 : f8 < 16) (h12 : f12 < 16)
    (h16 : f16 < 16) (hi : i < 32) :
    (packFields opc f8 f12 f16).getLsbD i =
      if i < 8 then opc.testBit i else if i < 12 then f8.testBit (i - 8)
      else if i < 16 then f12.testBit (i - 12) else if i < 20 then f16.testBit (i - 16) else false := by
  have e : opc + f8 * 2 ^ 8 + f12 * 2 ^ 12 + f16 * 2 ^ 16
      = opc + (f8 + (f12 + f16 * 2 ^ 4) * 2 ^ 4) * 2 ^ 8 := by omega
  simp only [packFields, BitVec.getLsbD_ofNat, hi, decide_true, Bool.true_and, e]
  rw [testBit_low_high _ _ 8 _ h0, testBit_low_high _ _ 4 _ h8, testBit_low_high _ _ 4 _ h12]
  by_cases c0 : i < 8
  · simp [c0]
  by_cases c1 : i < 12
  · have : i - 8 < 4 := by omega
    simp [c0, c1, this]
  by_cases c2 : i < 16
  · have a : ¬ i - 8 < 4 := by omega
    have b : i - 8 - 4 < 4 := by omega
    have d : i - 8 - 4 = i - 12 := by omega
    simp only [c0, c1, c2, a, d, if_true, if_false]; simp [show i - 12 < 4 by omega]
  have a : ¬ i - 8 < 4 := by omega
  have b : ¬ i - 8 - 4 < 4 := by omega
  have d : i - 8 - 4 - 4 = i - 16 := by omega
  simp only [c0, c1, c2, a, b, d, if_false]
  by_cases c3 : i < 20
  · simp [c3]
  · simp only [c3, if_false]
    exact Nat.testBit_lt_two_pow (Nat.lt_of_lt_of_le h16 (Nat.pow_le_pow_right (n := 2) (i := 4) (by omega) (by omega)))

/-- The bits of a packed word whose operands are bytes. -/
theorem packFields_bit_bytes (opc f8 f16 i : Nat) (h0 : opc < 256) (h8 : f8 < 256) (h16 : f16 < 256) (hi : i < 32) :
    (packFields opc f8 0 f16).getLsbD i =
      if i < 8 then opc.testBit i else if i < 16 then f8.testBit (i - 8)
      else if i < 24 then f16.testBit (i - 16) else false := by
  have e : opc + f8 * 2 ^ 8 + 0 * 2 ^ 12 + f16 * 2 ^ 16 = opc + (f8 + f16 * 2 ^ 8) * 2 ^ 8 := by omega
  simp only [packFields, BitVec.getLsbD_ofNat, hi, decide_true, Bool.true_and, e]
  rw [testBit_low_high _ _ 8 _ h0, testBit_low_high _ _ 8 _ h8]
  by_cases c0 : i < 8
  · simp [c0]
  by_cases c1 : i < 16
  · have : i - 8 < 8 := by omega
    simp [c0, c1, this]
  have a : ¬ i - 8 < 8 := by omega
  have d : i - 8 - 8 = i - 16 := by omega
  simp only [c0, c1, a, d, if_false]
  by_cases c3 : i < 24
  · simp [c3]
  · simp only [c3, if_false]
    exact Nat.testBit_lt_two_pow (Nat.lt_of_lt_of_le h16 (Nat.pow_le_pow_right (n := 2) (i := 8) (by omega) (by omega)))

/-- A row matches a word when each bit its mask selects is the pattern's, and the pattern has no other bit. -/
theorem rowMatches_of_bits (w : Word) (row : OpcodeRow)
    (h : ∀ i : Fin 32, (w.getLsbD i.val && row.mask.getLsbD i.val) = row.pattern.getLsbD i.val) :
    rowMatches w row = true := by
  simp only [rowMatches, beq_iff_eq]
  refine BitVec.eq_of_getLsbD_eq fun i hi => ?_
  simpa using h ⟨i, hi⟩

end Sys2Proof.Laws
end

