-- ==== Sys2Proof/Laws/State.lean ====
section
/-! SUPPORT. What each named update of State does to each field, one lemma per field per update; a later proof
cites these and unfolds no record update. -/

namespace Sys2Proof.Machine

section
variable (s : State)

@[simp] theorem State.complete_st : s.complete.st = s.st := rfl
@[simp] theorem State.complete_key : s.complete.key = s.key := rfl
@[simp] theorem State.complete_rk : s.complete.rk = s.rk := rfl
@[simp] theorem State.complete_kv : s.complete.kv = s.kv := rfl
@[simp] theorem State.complete_bres : s.complete.bres = s.bres := rfl
@[simp] theorem State.complete_m : s.complete.m = s.m := rfl
@[simp] theorem State.complete_mp : s.complete.mp = s.mp := rfl
@[simp] theorem State.complete_sse : s.complete.sse = s.sse := rfl
@[simp] theorem State.complete_ssd : s.complete.ssd = s.ssd := rfl
@[simp] theorem State.complete_dmm : s.complete.dmm = s.dmm := rfl
@[simp] theorem State.complete_p : s.complete.p = s.p := rfl
@[simp] theorem State.complete_cmd : s.complete.cmd = s.cmd := rfl
@[simp] theorem State.complete_done : s.complete.done = true := rfl
@[simp] theorem State.complete_res : s.complete.res = .ok := rfl
@[simp] theorem State.complete_ferr : s.complete.ferr = s.ferr := rfl
@[simp] theorem State.complete_phase : s.complete.phase = s.phase := rfl
@[simp] theorem State.complete_mode : s.complete.mode = s.mode := rfl
@[simp] theorem State.complete_rnd : s.complete.rnd = s.rnd := rfl
@[simp] theorem State.complete_rndDrawn : s.complete.rndDrawn = s.rndDrawn := rfl
@[simp] theorem State.complete_rndSupplied : s.complete.rndSupplied = s.rndSupplied := rfl
@[simp] theorem State.complete_inbox : s.complete.inbox = s.inbox := rfl
@[simp] theorem State.complete_replies : s.complete.replies = s.replies := rfl

end

section
variable (s : State) (c : ResultCode)

@[simp] theorem State.raiseErr_st : (s.raiseErr c).st = s.st := rfl
@[simp] theorem State.raiseErr_key : (s.raiseErr c).key = s.key := rfl
@[simp] theorem State.raiseErr_rk : (s.raiseErr c).rk = s.rk := rfl
@[simp] theorem State.raiseErr_kv : (s.raiseErr c).kv = s.kv := rfl
@[simp] theorem State.raiseErr_bres : (s.raiseErr c).bres = s.bres := rfl
@[simp] theorem State.raiseErr_m : (s.raiseErr c).m = s.m := rfl
@[simp] theorem State.raiseErr_mp : (s.raiseErr c).mp = s.mp := rfl
@[simp] theorem State.raiseErr_sse : (s.raiseErr c).sse = s.sse := rfl
@[simp] theorem State.raiseErr_ssd : (s.raiseErr c).ssd = s.ssd := rfl
@[simp] theorem State.raiseErr_dmm : (s.raiseErr c).dmm = s.dmm := rfl
@[simp] theorem State.raiseErr_p : (s.raiseErr c).p = s.p := rfl
@[simp] theorem State.raiseErr_cmd : (s.raiseErr c).cmd = s.cmd := rfl
@[simp] theorem State.raiseErr_done : (s.raiseErr c).done = false := rfl
@[simp] theorem State.raiseErr_res : (s.raiseErr c).res = c := rfl
@[simp] theorem State.raiseErr_ferr : (s.raiseErr c).ferr = firstError s.ferr c := rfl
@[simp] theorem State.raiseErr_phase : (s.raiseErr c).phase = s.phase := rfl
@[simp] theorem State.raiseErr_mode : (s.raiseErr c).mode = s.mode := rfl
@[simp] theorem State.raiseErr_rnd : (s.raiseErr c).rnd = s.rnd := rfl
@[simp] theorem State.raiseErr_rndDrawn : (s.raiseErr c).rndDrawn = s.rndDrawn := rfl
@[simp] theorem State.raiseErr_rndSupplied : (s.raiseErr c).rndSupplied = s.rndSupplied := rfl
@[simp] theorem State.raiseErr_inbox : (s.raiseErr c).inbox = s.inbox := rfl
@[simp] theorem State.raiseErr_replies : (s.raiseErr c).replies = s.replies := rfl

end

section
variable (s : State) (c : ResultCode)

@[simp] theorem State.accessErr_st : (s.accessErr c).st = s.st := rfl
@[simp] theorem State.accessErr_key : (s.accessErr c).key = s.key := rfl
@[simp] theorem State.accessErr_rk : (s.accessErr c).rk = s.rk := rfl
@[simp] theorem State.accessErr_kv : (s.accessErr c).kv = s.kv := rfl
@[simp] theorem State.accessErr_bres : (s.accessErr c).bres = s.bres := rfl
@[simp] theorem State.accessErr_m : (s.accessErr c).m = s.m := rfl
@[simp] theorem State.accessErr_mp : (s.accessErr c).mp = s.mp := rfl
@[simp] theorem State.accessErr_sse : (s.accessErr c).sse = s.sse := rfl
@[simp] theorem State.accessErr_ssd : (s.accessErr c).ssd = s.ssd := rfl
@[simp] theorem State.accessErr_dmm : (s.accessErr c).dmm = s.dmm := rfl
@[simp] theorem State.accessErr_p : (s.accessErr c).p = s.p := rfl
@[simp] theorem State.accessErr_cmd : (s.accessErr c).cmd = s.cmd := rfl
@[simp] theorem State.accessErr_done : (s.accessErr c).done = s.done := rfl
@[simp] theorem State.accessErr_res : (s.accessErr c).res = s.res := rfl
@[simp] theorem State.accessErr_ferr : (s.accessErr c).ferr = firstError s.ferr c := rfl
@[simp] theorem State.accessErr_phase : (s.accessErr c).phase = s.phase := rfl
@[simp] theorem State.accessErr_mode : (s.accessErr c).mode = s.mode := rfl
@[simp] theorem State.accessErr_rnd : (s.accessErr c).rnd = s.rnd := rfl
@[simp] theorem State.accessErr_rndDrawn : (s.accessErr c).rndDrawn = s.rndDrawn := rfl
@[simp] theorem State.accessErr_rndSupplied : (s.accessErr c).rndSupplied = s.rndSupplied := rfl
@[simp] theorem State.accessErr_inbox : (s.accessErr c).inbox = s.inbox := rfl
@[simp] theorem State.accessErr_replies : (s.accessErr c).replies = s.replies := rfl

end

section
variable (s : State)

@[simp] theorem State.clearFerr_st : s.clearFerr.st = s.st := rfl
@[simp] theorem State.clearFerr_key : s.clearFerr.key = s.key := rfl
@[simp] theorem State.clearFerr_rk : s.clearFerr.rk = s.rk := rfl
@[simp] theorem State.clearFerr_kv : s.clearFerr.kv = s.kv := rfl
@[simp] theorem State.clearFerr_bres : s.clearFerr.bres = s.bres := rfl
@[simp] theorem State.clearFerr_m : s.clearFerr.m = s.m := rfl
@[simp] theorem State.clearFerr_mp : s.clearFerr.mp = s.mp := rfl
@[simp] theorem State.clearFerr_sse : s.clearFerr.sse = s.sse := rfl
@[simp] theorem State.clearFerr_ssd : s.clearFerr.ssd = s.ssd := rfl
@[simp] theorem State.clearFerr_dmm : s.clearFerr.dmm = s.dmm := rfl
@[simp] theorem State.clearFerr_p : s.clearFerr.p = s.p := rfl
@[simp] theorem State.clearFerr_cmd : s.clearFerr.cmd = s.cmd := rfl
@[simp] theorem State.clearFerr_done : s.clearFerr.done = s.done := rfl
@[simp] theorem State.clearFerr_res : s.clearFerr.res = s.res := rfl
@[simp] theorem State.clearFerr_ferr : s.clearFerr.ferr = .ok := rfl
@[simp] theorem State.clearFerr_phase : s.clearFerr.phase = s.phase := rfl
@[simp] theorem State.clearFerr_mode : s.clearFerr.mode = s.mode := rfl
@[simp] theorem State.clearFerr_rnd : s.clearFerr.rnd = s.rnd := rfl
@[simp] theorem State.clearFerr_rndDrawn : s.clearFerr.rndDrawn = s.rndDrawn := rfl
@[simp] theorem State.clearFerr_rndSupplied : s.clearFerr.rndSupplied = s.rndSupplied := rfl
@[simp] theorem State.clearFerr_inbox : s.clearFerr.inbox = s.inbox := rfl
@[simp] theorem State.clearFerr_replies : s.clearFerr.replies = s.replies := rfl

end

section
variable (s : State) (w : Word)

@[simp] theorem State.beginCommand_st : (s.beginCommand w).st = s.st := rfl
@[simp] theorem State.beginCommand_key : (s.beginCommand w).key = s.key := rfl
@[simp] theorem State.beginCommand_rk : (s.beginCommand w).rk = s.rk := rfl
@[simp] theorem State.beginCommand_kv : (s.beginCommand w).kv = s.kv := rfl
@[simp] theorem State.beginCommand_bres : (s.beginCommand w).bres = s.bres := rfl
@[simp] theorem State.beginCommand_m : (s.beginCommand w).m = s.m := rfl
@[simp] theorem State.beginCommand_mp : (s.beginCommand w).mp = s.mp := rfl
@[simp] theorem State.beginCommand_sse : (s.beginCommand w).sse = s.sse := rfl
@[simp] theorem State.beginCommand_ssd : (s.beginCommand w).ssd = s.ssd := rfl
@[simp] theorem State.beginCommand_dmm : (s.beginCommand w).dmm = s.dmm := rfl
@[simp] theorem State.beginCommand_p : (s.beginCommand w).p = s.p := rfl
@[simp] theorem State.beginCommand_cmd : (s.beginCommand w).cmd = w := rfl
@[simp] theorem State.beginCommand_done : (s.beginCommand w).done = false := rfl
@[simp] theorem State.beginCommand_res : (s.beginCommand w).res = s.res := rfl
@[simp] theorem State.beginCommand_ferr : (s.beginCommand w).ferr = s.ferr := rfl
@[simp] theorem State.beginCommand_phase : (s.beginCommand w).phase = s.phase := rfl
@[simp] theorem State.beginCommand_mode : (s.beginCommand w).mode = s.mode := rfl
@[simp] theorem State.beginCommand_rnd : (s.beginCommand w).rnd = s.rnd := rfl
@[simp] theorem State.beginCommand_rndDrawn : (s.beginCommand w).rndDrawn = s.rndDrawn := rfl
@[simp] theorem State.beginCommand_rndSupplied : (s.beginCommand w).rndSupplied = s.rndSupplied := rfl
@[simp] theorem State.beginCommand_inbox : (s.beginCommand w).inbox = s.inbox := rfl
@[simp] theorem State.beginCommand_replies : (s.beginCommand w).replies = s.replies := rfl

end

section
variable (s : State) (b : Block)

@[simp] theorem State.writeSt_st : (s.writeSt b).st = b := rfl
@[simp] theorem State.writeSt_key : (s.writeSt b).key = s.key := rfl
@[simp] theorem State.writeSt_rk : (s.writeSt b).rk = s.rk := rfl
@[simp] theorem State.writeSt_kv : (s.writeSt b).kv = s.kv := rfl
@[simp] theorem State.writeSt_bres : (s.writeSt b).bres = s.bres := rfl
@[simp] theorem State.writeSt_m : (s.writeSt b).m = s.m := rfl
@[simp] theorem State.writeSt_mp : (s.writeSt b).mp = s.mp := rfl
@[simp] theorem State.writeSt_sse : (s.writeSt b).sse = s.sse := rfl
@[simp] theorem State.writeSt_ssd : (s.writeSt b).ssd = s.ssd := rfl
@[simp] theorem State.writeSt_dmm : (s.writeSt b).dmm = s.dmm := rfl
@[simp] theorem State.writeSt_p : (s.writeSt b).p = s.p := rfl
@[simp] theorem State.writeSt_cmd : (s.writeSt b).cmd = s.cmd := rfl
@[simp] theorem State.writeSt_done : (s.writeSt b).done = s.done := rfl
@[simp] theorem State.writeSt_res : (s.writeSt b).res = s.res := rfl
@[simp] theorem State.writeSt_ferr : (s.writeSt b).ferr = s.ferr := rfl
@[simp] theorem State.writeSt_phase : (s.writeSt b).phase = s.phase := rfl
@[simp] theorem State.writeSt_mode : (s.writeSt b).mode = s.mode := rfl
@[simp] theorem State.writeSt_rnd : (s.writeSt b).rnd = s.rnd := rfl
@[simp] theorem State.writeSt_rndDrawn : (s.writeSt b).rndDrawn = s.rndDrawn := rfl
@[simp] theorem State.writeSt_rndSupplied : (s.writeSt b).rndSupplied = s.rndSupplied := rfl
@[simp] theorem State.writeSt_inbox : (s.writeSt b).inbox = s.inbox := rfl
@[simp] theorem State.writeSt_replies : (s.writeSt b).replies = s.replies := rfl

end

section
variable (s : State) (b : Block)

@[simp] theorem State.writeKey_st : (s.writeKey b).st = s.st := rfl
@[simp] theorem State.writeKey_key : (s.writeKey b).key = b := rfl
@[simp] theorem State.writeKey_rk : (s.writeKey b).rk = s.rk := rfl
@[simp] theorem State.writeKey_kv : (s.writeKey b).kv = false := rfl
@[simp] theorem State.writeKey_bres : (s.writeKey b).bres = s.bres := rfl
@[simp] theorem State.writeKey_m : (s.writeKey b).m = s.m := rfl
@[simp] theorem State.writeKey_mp : (s.writeKey b).mp = s.mp := rfl
@[simp] theorem State.writeKey_sse : (s.writeKey b).sse = s.sse := rfl
@[simp] theorem State.writeKey_ssd : (s.writeKey b).ssd = s.ssd := rfl
@[simp] theorem State.writeKey_dmm : (s.writeKey b).dmm = s.dmm := rfl
@[simp] theorem State.writeKey_p : (s.writeKey b).p = s.p := rfl
@[simp] theorem State.writeKey_cmd : (s.writeKey b).cmd = s.cmd := rfl
@[simp] theorem State.writeKey_done : (s.writeKey b).done = s.done := rfl
@[simp] theorem State.writeKey_res : (s.writeKey b).res = s.res := rfl
@[simp] theorem State.writeKey_ferr : (s.writeKey b).ferr = s.ferr := rfl
@[simp] theorem State.writeKey_phase : (s.writeKey b).phase = s.phase := rfl
@[simp] theorem State.writeKey_mode : (s.writeKey b).mode = s.mode := rfl
@[simp] theorem State.writeKey_rnd : (s.writeKey b).rnd = s.rnd := rfl
@[simp] theorem State.writeKey_rndDrawn : (s.writeKey b).rndDrawn = s.rndDrawn := rfl
@[simp] theorem State.writeKey_rndSupplied : (s.writeKey b).rndSupplied = s.rndSupplied := rfl
@[simp] theorem State.writeKey_inbox : (s.writeKey b).inbox = s.inbox := rfl
@[simp] theorem State.writeKey_replies : (s.writeKey b).replies = s.replies := rfl

end

section
variable (s : State) (x : Schedule)

@[simp] theorem State.writeSchedule_st : (s.writeSchedule x).st = s.st := rfl
@[simp] theorem State.writeSchedule_key : (s.writeSchedule x).key = s.key := rfl
@[simp] theorem State.writeSchedule_rk : (s.writeSchedule x).rk = x := rfl
@[simp] theorem State.writeSchedule_kv : (s.writeSchedule x).kv = true := rfl
@[simp] theorem State.writeSchedule_bres : (s.writeSchedule x).bres = s.bres := rfl
@[simp] theorem State.writeSchedule_m : (s.writeSchedule x).m = s.m := rfl
@[simp] theorem State.writeSchedule_mp : (s.writeSchedule x).mp = s.mp := rfl
@[simp] theorem State.writeSchedule_sse : (s.writeSchedule x).sse = s.sse := rfl
@[simp] theorem State.writeSchedule_ssd : (s.writeSchedule x).ssd = s.ssd := rfl
@[simp] theorem State.writeSchedule_dmm : (s.writeSchedule x).dmm = s.dmm := rfl
@[simp] theorem State.writeSchedule_p : (s.writeSchedule x).p = s.p := rfl
@[simp] theorem State.writeSchedule_cmd : (s.writeSchedule x).cmd = s.cmd := rfl
@[simp] theorem State.writeSchedule_done : (s.writeSchedule x).done = s.done := rfl
@[simp] theorem State.writeSchedule_res : (s.writeSchedule x).res = s.res := rfl
@[simp] theorem State.writeSchedule_ferr : (s.writeSchedule x).ferr = s.ferr := rfl
@[simp] theorem State.writeSchedule_phase : (s.writeSchedule x).phase = s.phase := rfl
@[simp] theorem State.writeSchedule_mode : (s.writeSchedule x).mode = s.mode := rfl
@[simp] theorem State.writeSchedule_rnd : (s.writeSchedule x).rnd = s.rnd := rfl
@[simp] theorem State.writeSchedule_rndDrawn : (s.writeSchedule x).rndDrawn = s.rndDrawn := rfl
@[simp] theorem State.writeSchedule_rndSupplied : (s.writeSchedule x).rndSupplied = s.rndSupplied := rfl
@[simp] theorem State.writeSchedule_inbox : (s.writeSchedule x).inbox = s.inbox := rfl
@[simp] theorem State.writeSchedule_replies : (s.writeSchedule x).replies = s.replies := rfl

end

section
variable (s : State) (b : Byte)

@[simp] theorem State.writeBres_st : (s.writeBres b).st = s.st := rfl
@[simp] theorem State.writeBres_key : (s.writeBres b).key = s.key := rfl
@[simp] theorem State.writeBres_rk : (s.writeBres b).rk = s.rk := rfl
@[simp] theorem State.writeBres_kv : (s.writeBres b).kv = s.kv := rfl
@[simp] theorem State.writeBres_bres : (s.writeBres b).bres = b := rfl
@[simp] theorem State.writeBres_m : (s.writeBres b).m = s.m := rfl
@[simp] theorem State.writeBres_mp : (s.writeBres b).mp = s.mp := rfl
@[simp] theorem State.writeBres_sse : (s.writeBres b).sse = s.sse := rfl
@[simp] theorem State.writeBres_ssd : (s.writeBres b).ssd = s.ssd := rfl
@[simp] theorem State.writeBres_dmm : (s.writeBres b).dmm = s.dmm := rfl
@[simp] theorem State.writeBres_p : (s.writeBres b).p = s.p := rfl
@[simp] theorem State.writeBres_cmd : (s.writeBres b).cmd = s.cmd := rfl
@[simp] theorem State.writeBres_done : (s.writeBres b).done = s.done := rfl
@[simp] theorem State.writeBres_res : (s.writeBres b).res = s.res := rfl
@[simp] theorem State.writeBres_ferr : (s.writeBres b).ferr = s.ferr := rfl
@[simp] theorem State.writeBres_phase : (s.writeBres b).phase = s.phase := rfl
@[simp] theorem State.writeBres_mode : (s.writeBres b).mode = s.mode := rfl
@[simp] theorem State.writeBres_rnd : (s.writeBres b).rnd = s.rnd := rfl
@[simp] theorem State.writeBres_rndDrawn : (s.writeBres b).rndDrawn = s.rndDrawn := rfl
@[simp] theorem State.writeBres_rndSupplied : (s.writeBres b).rndSupplied = s.rndSupplied := rfl
@[simp] theorem State.writeBres_inbox : (s.writeBres b).inbox = s.inbox := rfl
@[simp] theorem State.writeBres_replies : (s.writeBres b).replies = s.replies := rfl

end

section
variable (s : State) (x : Bytes32)

@[simp] theorem State.writeMessage_st : (s.writeMessage x).st = s.st := rfl
@[simp] theorem State.writeMessage_key : (s.writeMessage x).key = s.key := rfl
@[simp] theorem State.writeMessage_rk : (s.writeMessage x).rk = s.rk := rfl
@[simp] theorem State.writeMessage_kv : (s.writeMessage x).kv = s.kv := rfl
@[simp] theorem State.writeMessage_bres : (s.writeMessage x).bres = s.bres := rfl
@[simp] theorem State.writeMessage_m : (s.writeMessage x).m = x := rfl
@[simp] theorem State.writeMessage_mp : (s.writeMessage x).mp = s.mp := rfl
@[simp] theorem State.writeMessage_sse : (s.writeMessage x).sse = s.sse := rfl
@[simp] theorem State.writeMessage_ssd : (s.writeMessage x).ssd = s.ssd := rfl
@[simp] theorem State.writeMessage_dmm : (s.writeMessage x).dmm = s.dmm := rfl
@[simp] theorem State.writeMessage_p : (s.writeMessage x).p = s.p := rfl
@[simp] theorem State.writeMessage_cmd : (s.writeMessage x).cmd = s.cmd := rfl
@[simp] theorem State.writeMessage_done : (s.writeMessage x).done = s.done := rfl
@[simp] theorem State.writeMessage_res : (s.writeMessage x).res = s.res := rfl
@[simp] theorem State.writeMessage_ferr : (s.writeMessage x).ferr = s.ferr := rfl
@[simp] theorem State.writeMessage_phase : (s.writeMessage x).phase = s.phase := rfl
@[simp] theorem State.writeMessage_mode : (s.writeMessage x).mode = s.mode := rfl
@[simp] theorem State.writeMessage_rnd : (s.writeMessage x).rnd = s.rnd := rfl
@[simp] theorem State.writeMessage_rndDrawn : (s.writeMessage x).rndDrawn = s.rndDrawn := rfl
@[simp] theorem State.writeMessage_rndSupplied : (s.writeMessage x).rndSupplied = s.rndSupplied := rfl
@[simp] theorem State.writeMessage_inbox : (s.writeMessage x).inbox = s.inbox := rfl
@[simp] theorem State.writeMessage_replies : (s.writeMessage x).replies = s.replies := rfl

end

section
variable (s : State) (x : Bytes32)

@[simp] theorem State.writeDecoded_st : (s.writeDecoded x).st = s.st := rfl
@[simp] theorem State.writeDecoded_key : (s.writeDecoded x).key = s.key := rfl
@[simp] theorem State.writeDecoded_rk : (s.writeDecoded x).rk = s.rk := rfl
@[simp] theorem State.writeDecoded_kv : (s.writeDecoded x).kv = s.kv := rfl
@[simp] theorem State.writeDecoded_bres : (s.writeDecoded x).bres = s.bres := rfl
@[simp] theorem State.writeDecoded_m : (s.writeDecoded x).m = s.m := rfl
@[simp] theorem State.writeDecoded_mp : (s.writeDecoded x).mp = x := rfl
@[simp] theorem State.writeDecoded_sse : (s.writeDecoded x).sse = s.sse := rfl
@[simp] theorem State.writeDecoded_ssd : (s.writeDecoded x).ssd = s.ssd := rfl
@[simp] theorem State.writeDecoded_dmm : (s.writeDecoded x).dmm = decodingMismatch x s.m := rfl
@[simp] theorem State.writeDecoded_p : (s.writeDecoded x).p = s.p := rfl
@[simp] theorem State.writeDecoded_cmd : (s.writeDecoded x).cmd = s.cmd := rfl
@[simp] theorem State.writeDecoded_done : (s.writeDecoded x).done = s.done := rfl
@[simp] theorem State.writeDecoded_res : (s.writeDecoded x).res = s.res := rfl
@[simp] theorem State.writeDecoded_ferr : (s.writeDecoded x).ferr = s.ferr := rfl
@[simp] theorem State.writeDecoded_phase : (s.writeDecoded x).phase = s.phase := rfl
@[simp] theorem State.writeDecoded_mode : (s.writeDecoded x).mode = s.mode := rfl
@[simp] theorem State.writeDecoded_rnd : (s.writeDecoded x).rnd = s.rnd := rfl
@[simp] theorem State.writeDecoded_rndDrawn : (s.writeDecoded x).rndDrawn = s.rndDrawn := rfl
@[simp] theorem State.writeDecoded_rndSupplied : (s.writeDecoded x).rndSupplied = s.rndSupplied := rfl
@[simp] theorem State.writeDecoded_inbox : (s.writeDecoded x).inbox = s.inbox := rfl
@[simp] theorem State.writeDecoded_replies : (s.writeDecoded x).replies = s.replies := rfl

end

section
variable (s : State) (d : PReg) (f : Poly)

@[simp] theorem State.writePoly_st : (s.writePoly d f).st = s.st := rfl
@[simp] theorem State.writePoly_key : (s.writePoly d f).key = s.key := rfl
@[simp] theorem State.writePoly_rk : (s.writePoly d f).rk = s.rk := rfl
@[simp] theorem State.writePoly_kv : (s.writePoly d f).kv = s.kv := rfl
@[simp] theorem State.writePoly_bres : (s.writePoly d f).bres = s.bres := rfl
@[simp] theorem State.writePoly_m : (s.writePoly d f).m = s.m := rfl
@[simp] theorem State.writePoly_mp : (s.writePoly d f).mp = s.mp := rfl
@[simp] theorem State.writePoly_sse : (s.writePoly d f).sse = s.sse := rfl
@[simp] theorem State.writePoly_ssd : (s.writePoly d f).ssd = s.ssd := rfl
@[simp] theorem State.writePoly_dmm : (s.writePoly d f).dmm = s.dmm := rfl
@[simp] theorem State.writePoly_p : (s.writePoly d f).p = s.p.set d.val f d.isLt := rfl
@[simp] theorem State.writePoly_cmd : (s.writePoly d f).cmd = s.cmd := rfl
@[simp] theorem State.writePoly_done : (s.writePoly d f).done = s.done := rfl
@[simp] theorem State.writePoly_res : (s.writePoly d f).res = s.res := rfl
@[simp] theorem State.writePoly_ferr : (s.writePoly d f).ferr = s.ferr := rfl
@[simp] theorem State.writePoly_phase : (s.writePoly d f).phase = s.phase := rfl
@[simp] theorem State.writePoly_mode : (s.writePoly d f).mode = s.mode := rfl
@[simp] theorem State.writePoly_rnd : (s.writePoly d f).rnd = s.rnd := rfl
@[simp] theorem State.writePoly_rndDrawn : (s.writePoly d f).rndDrawn = s.rndDrawn := rfl
@[simp] theorem State.writePoly_rndSupplied : (s.writePoly d f).rndSupplied = s.rndSupplied := rfl
@[simp] theorem State.writePoly_inbox : (s.writePoly d f).inbox = s.inbox := rfl
@[simp] theorem State.writePoly_replies : (s.writePoly d f).replies = s.replies := rfl

end

section
variable (s : State) (ph : Phase) (md : Mode) (r : Fin 11)

@[simp] theorem State.setSequencer_st : (s.setSequencer ph md r).st = s.st := rfl
@[simp] theorem State.setSequencer_key : (s.setSequencer ph md r).key = s.key := rfl
@[simp] theorem State.setSequencer_rk : (s.setSequencer ph md r).rk = s.rk := rfl
@[simp] theorem State.setSequencer_kv : (s.setSequencer ph md r).kv = s.kv := rfl
@[simp] theorem State.setSequencer_bres : (s.setSequencer ph md r).bres = s.bres := rfl
@[simp] theorem State.setSequencer_m : (s.setSequencer ph md r).m = s.m := rfl
@[simp] theorem State.setSequencer_mp : (s.setSequencer ph md r).mp = s.mp := rfl
@[simp] theorem State.setSequencer_sse : (s.setSequencer ph md r).sse = s.sse := rfl
@[simp] theorem State.setSequencer_ssd : (s.setSequencer ph md r).ssd = s.ssd := rfl
@[simp] theorem State.setSequencer_dmm : (s.setSequencer ph md r).dmm = s.dmm := rfl
@[simp] theorem State.setSequencer_p : (s.setSequencer ph md r).p = s.p := rfl
@[simp] theorem State.setSequencer_cmd : (s.setSequencer ph md r).cmd = s.cmd := rfl
@[simp] theorem State.setSequencer_done : (s.setSequencer ph md r).done = s.done := rfl
@[simp] theorem State.setSequencer_res : (s.setSequencer ph md r).res = s.res := rfl
@[simp] theorem State.setSequencer_ferr : (s.setSequencer ph md r).ferr = s.ferr := rfl
@[simp] theorem State.setSequencer_phase : (s.setSequencer ph md r).phase = ph := rfl
@[simp] theorem State.setSequencer_mode : (s.setSequencer ph md r).mode = md := rfl
@[simp] theorem State.setSequencer_rnd : (s.setSequencer ph md r).rnd = r := rfl
@[simp] theorem State.setSequencer_rndDrawn : (s.setSequencer ph md r).rndDrawn = s.rndDrawn := rfl
@[simp] theorem State.setSequencer_rndSupplied : (s.setSequencer ph md r).rndSupplied = s.rndSupplied := rfl
@[simp] theorem State.setSequencer_inbox : (s.setSequencer ph md r).inbox = s.inbox := rfl
@[simp] theorem State.setSequencer_replies : (s.setSequencer ph md r).replies = s.replies := rfl

end

section
variable (s : State) (n : Nat)

@[simp] theorem State.consumeWords_st : (s.consumeWords n).st = s.st := rfl
@[simp] theorem State.consumeWords_key : (s.consumeWords n).key = s.key := rfl
@[simp] theorem State.consumeWords_rk : (s.consumeWords n).rk = s.rk := rfl
@[simp] theorem State.consumeWords_kv : (s.consumeWords n).kv = s.kv := rfl
@[simp] theorem State.consumeWords_bres : (s.consumeWords n).bres = s.bres := rfl
@[simp] theorem State.consumeWords_m : (s.consumeWords n).m = s.m := rfl
@[simp] theorem State.consumeWords_mp : (s.consumeWords n).mp = s.mp := rfl
@[simp] theorem State.consumeWords_sse : (s.consumeWords n).sse = s.sse := rfl
@[simp] theorem State.consumeWords_ssd : (s.consumeWords n).ssd = s.ssd := rfl
@[simp] theorem State.consumeWords_dmm : (s.consumeWords n).dmm = s.dmm := rfl
@[simp] theorem State.consumeWords_p : (s.consumeWords n).p = s.p := rfl
@[simp] theorem State.consumeWords_cmd : (s.consumeWords n).cmd = s.cmd := rfl
@[simp] theorem State.consumeWords_done : (s.consumeWords n).done = s.done := rfl
@[simp] theorem State.consumeWords_res : (s.consumeWords n).res = s.res := rfl
@[simp] theorem State.consumeWords_ferr : (s.consumeWords n).ferr = s.ferr := rfl
@[simp] theorem State.consumeWords_phase : (s.consumeWords n).phase = s.phase := rfl
@[simp] theorem State.consumeWords_mode : (s.consumeWords n).mode = s.mode := rfl
@[simp] theorem State.consumeWords_rnd : (s.consumeWords n).rnd = s.rnd := rfl
@[simp] theorem State.consumeWords_rndDrawn : (s.consumeWords n).rndDrawn = s.rndDrawn + n := rfl
@[simp] theorem State.consumeWords_rndSupplied : (s.consumeWords n).rndSupplied = s.rndSupplied.drop n := rfl
@[simp] theorem State.consumeWords_inbox : (s.consumeWords n).inbox = s.inbox := rfl
@[simp] theorem State.consumeWords_replies : (s.consumeWords n).replies = s.replies := rfl

end

section
variable (s : State) (v : Word)

@[simp] theorem State.reply_st : (s.reply v).st = s.st := rfl
@[simp] theorem State.reply_key : (s.reply v).key = s.key := rfl
@[simp] theorem State.reply_rk : (s.reply v).rk = s.rk := rfl
@[simp] theorem State.reply_kv : (s.reply v).kv = s.kv := rfl
@[simp] theorem State.reply_bres : (s.reply v).bres = s.bres := rfl
@[simp] theorem State.reply_m : (s.reply v).m = s.m := rfl
@[simp] theorem State.reply_mp : (s.reply v).mp = s.mp := rfl
@[simp] theorem State.reply_sse : (s.reply v).sse = s.sse := rfl
@[simp] theorem State.reply_ssd : (s.reply v).ssd = s.ssd := rfl
@[simp] theorem State.reply_dmm : (s.reply v).dmm = s.dmm := rfl
@[simp] theorem State.reply_p : (s.reply v).p = s.p := rfl
@[simp] theorem State.reply_cmd : (s.reply v).cmd = s.cmd := rfl
@[simp] theorem State.reply_done : (s.reply v).done = s.done := rfl
@[simp] theorem State.reply_res : (s.reply v).res = s.res := rfl
@[simp] theorem State.reply_ferr : (s.reply v).ferr = s.ferr := rfl
@[simp] theorem State.reply_phase : (s.reply v).phase = s.phase := rfl
@[simp] theorem State.reply_mode : (s.reply v).mode = s.mode := rfl
@[simp] theorem State.reply_rnd : (s.reply v).rnd = s.rnd := rfl
@[simp] theorem State.reply_rndDrawn : (s.reply v).rndDrawn = s.rndDrawn := rfl
@[simp] theorem State.reply_rndSupplied : (s.reply v).rndSupplied = s.rndSupplied := rfl
@[simp] theorem State.reply_inbox : (s.reply v).inbox = s.inbox := rfl
@[simp] theorem State.reply_replies : (s.reply v).replies = s.replies ++ [v] := rfl

end

section
variable (s : State) (r : List HostEvent)

@[simp] theorem State.setInbox_st : (s.setInbox r).st = s.st := rfl
@[simp] theorem State.setInbox_key : (s.setInbox r).key = s.key := rfl
@[simp] theorem State.setInbox_rk : (s.setInbox r).rk = s.rk := rfl
@[simp] theorem State.setInbox_kv : (s.setInbox r).kv = s.kv := rfl
@[simp] theorem State.setInbox_bres : (s.setInbox r).bres = s.bres := rfl
@[simp] theorem State.setInbox_m : (s.setInbox r).m = s.m := rfl
@[simp] theorem State.setInbox_mp : (s.setInbox r).mp = s.mp := rfl
@[simp] theorem State.setInbox_sse : (s.setInbox r).sse = s.sse := rfl
@[simp] theorem State.setInbox_ssd : (s.setInbox r).ssd = s.ssd := rfl
@[simp] theorem State.setInbox_dmm : (s.setInbox r).dmm = s.dmm := rfl
@[simp] theorem State.setInbox_p : (s.setInbox r).p = s.p := rfl
@[simp] theorem State.setInbox_cmd : (s.setInbox r).cmd = s.cmd := rfl
@[simp] theorem State.setInbox_done : (s.setInbox r).done = s.done := rfl
@[simp] theorem State.setInbox_res : (s.setInbox r).res = s.res := rfl
@[simp] theorem State.setInbox_ferr : (s.setInbox r).ferr = s.ferr := rfl
@[simp] theorem State.setInbox_phase : (s.setInbox r).phase = s.phase := rfl
@[simp] theorem State.setInbox_mode : (s.setInbox r).mode = s.mode := rfl
@[simp] theorem State.setInbox_rnd : (s.setInbox r).rnd = s.rnd := rfl
@[simp] theorem State.setInbox_rndDrawn : (s.setInbox r).rndDrawn = s.rndDrawn := rfl
@[simp] theorem State.setInbox_rndSupplied : (s.setInbox r).rndSupplied = s.rndSupplied := rfl
@[simp] theorem State.setInbox_inbox : (s.setInbox r).inbox = r := rfl
@[simp] theorem State.setInbox_replies : (s.setInbox r).replies = s.replies := rfl

end

section
variable (s : State) (sel : Side) (x : Bytes32)

@[simp] theorem State.writeSecret_st : (s.writeSecret sel x).st = s.st := by cases sel <;> rfl
@[simp] theorem State.writeSecret_key : (s.writeSecret sel x).key = s.key := by cases sel <;> rfl
@[simp] theorem State.writeSecret_rk : (s.writeSecret sel x).rk = s.rk := by cases sel <;> rfl
@[simp] theorem State.writeSecret_kv : (s.writeSecret sel x).kv = s.kv := by cases sel <;> rfl
@[simp] theorem State.writeSecret_bres : (s.writeSecret sel x).bres = s.bres := by cases sel <;> rfl
@[simp] theorem State.writeSecret_m : (s.writeSecret sel x).m = s.m := by cases sel <;> rfl
@[simp] theorem State.writeSecret_mp : (s.writeSecret sel x).mp = s.mp := by cases sel <;> rfl
@[simp] theorem State.writeSecret_sse :
    (s.writeSecret sel x).sse = (if sel = .encapsulation then x else s.sse) := by cases sel <;> rfl
@[simp] theorem State.writeSecret_ssd :
    (s.writeSecret sel x).ssd = (if sel = .decapsulation then x else s.ssd) := by cases sel <;> rfl
@[simp] theorem State.writeSecret_dmm : (s.writeSecret sel x).dmm = s.dmm := by cases sel <;> rfl
@[simp] theorem State.writeSecret_p : (s.writeSecret sel x).p = s.p := by cases sel <;> rfl
@[simp] theorem State.writeSecret_cmd : (s.writeSecret sel x).cmd = s.cmd := by cases sel <;> rfl
@[simp] theorem State.writeSecret_done : (s.writeSecret sel x).done = s.done := by cases sel <;> rfl
@[simp] theorem State.writeSecret_res : (s.writeSecret sel x).res = s.res := by cases sel <;> rfl
@[simp] theorem State.writeSecret_ferr : (s.writeSecret sel x).ferr = s.ferr := by cases sel <;> rfl
@[simp] theorem State.writeSecret_phase : (s.writeSecret sel x).phase = s.phase := by cases sel <;> rfl
@[simp] theorem State.writeSecret_mode : (s.writeSecret sel x).mode = s.mode := by cases sel <;> rfl
@[simp] theorem State.writeSecret_rnd : (s.writeSecret sel x).rnd = s.rnd := by cases sel <;> rfl
@[simp] theorem State.writeSecret_rndDrawn : (s.writeSecret sel x).rndDrawn = s.rndDrawn := by cases sel <;> rfl
@[simp] theorem State.writeSecret_rndSupplied : (s.writeSecret sel x).rndSupplied = s.rndSupplied := by cases sel <;> rfl
@[simp] theorem State.writeSecret_inbox : (s.writeSecret sel x).inbox = s.inbox := by cases sel <;> rfl
@[simp] theorem State.writeSecret_replies : (s.writeSecret sel x).replies = s.replies := by cases sel <;> rfl

end

section
variable (s : State) (r : List HostEvent)

@[simp] theorem State.applyReset_st : (s.applyReset r).st = State.reset.st := rfl
@[simp] theorem State.applyReset_key : (s.applyReset r).key = State.reset.key := rfl
@[simp] theorem State.applyReset_rk : (s.applyReset r).rk = State.reset.rk := rfl
@[simp] theorem State.applyReset_kv : (s.applyReset r).kv = State.reset.kv := rfl
@[simp] theorem State.applyReset_bres : (s.applyReset r).bres = State.reset.bres := rfl
@[simp] theorem State.applyReset_m : (s.applyReset r).m = State.reset.m := rfl
@[simp] theorem State.applyReset_mp : (s.applyReset r).mp = State.reset.mp := rfl
@[simp] theorem State.applyReset_sse : (s.applyReset r).sse = State.reset.sse := rfl
@[simp] theorem State.applyReset_ssd : (s.applyReset r).ssd = State.reset.ssd := rfl
@[simp] theorem State.applyReset_dmm : (s.applyReset r).dmm = State.reset.dmm := rfl
@[simp] theorem State.applyReset_p : (s.applyReset r).p = State.reset.p := rfl
@[simp] theorem State.applyReset_cmd : (s.applyReset r).cmd = State.reset.cmd := rfl
@[simp] theorem State.applyReset_done : (s.applyReset r).done = State.reset.done := rfl
@[simp] theorem State.applyReset_res : (s.applyReset r).res = State.reset.res := rfl
@[simp] theorem State.applyReset_ferr : (s.applyReset r).ferr = State.reset.ferr := rfl
@[simp] theorem State.applyReset_phase : (s.applyReset r).phase = State.reset.phase := rfl
@[simp] theorem State.applyReset_mode : (s.applyReset r).mode = State.reset.mode := rfl
@[simp] theorem State.applyReset_rnd : (s.applyReset r).rnd = State.reset.rnd := rfl
@[simp] theorem State.applyReset_rndDrawn : (s.applyReset r).rndDrawn = s.rndDrawn := rfl
@[simp] theorem State.applyReset_rndSupplied : (s.applyReset r).rndSupplied = s.rndSupplied := rfl
@[simp] theorem State.applyReset_inbox : (s.applyReset r).inbox = r := rfl
@[simp] theorem State.applyReset_replies : (s.applyReset r).replies = s.replies := rfl

end

/-- A register file read back at the register written. -/
theorem State.writePoly_same (s : State) (d : PReg) (f : Poly) : (s.writePoly d f).p[d] = f := by
  simp [State.writePoly_p]

/-- A register file read back at another register. -/
theorem State.writePoly_other (s : State) (d e : PReg) (f : Poly) (h : d ≠ e) : (s.writePoly d f).p[e] = s.p[e] := by
  have : d.val ≠ e.val := fun k => h (Fin.ext k)
  simp [State.writePoly_p, this]

end Sys2Proof.Machine
end

