-- ==== Sys2Proof/Laws/Engine.lean ====
section
/-! SUPPORT. The sequencer: everything one engine step can do, and when there is one. -/

namespace Sys2Proof.Laws

open Machine

/-- A sequencer in a row of the table that is not idle has its step. -/
theorem engineStep_isSome {s : State} (h : SequencerLegal s) (hp : s.phase ≠ .idle) : ∃ t, engineStep s = some t := by
  have key : ∀ r : Fin 11, 1 ≤ r.val ∧ r.val ≤ 9 → (¬ (1 ≤ r.val ∧ r.val ≤ 8) → r = 9) ∧
      (¬ (2 ≤ r.val ∧ r.val ≤ 9) → r = 1) := by decide
  unfold engineStep
  split <;> rename_i e1 e2
  · exact absurd e2 hp
  all_goals
    simp only [SequencerLegal, sequencerLegal, e1, e2, decide_eq_true_eq] at h
    split <;> rename_i hr
    · exact ⟨_, rfl⟩
    · first
      | exact absurd (Fin.ext h) hr
      | (rw [if_pos (by first | exact (key _ h).1 hr | exact (key _ h).2 hr)]; exact ⟨_, rfl⟩)

/-- What one engine step can do: from a row of the table, it writes a block to ST and either moves to another row,
not yet idle, or ends the command; MODE stays. -/
theorem engineStep_cases {s t : State} (h : engineStep s = some t) :
    SequencerLegal s ∧ s.phase ≠ .idle ∧ SequencerLegal t ∧
      ((∃ b ph r, ph ≠ .idle ∧ t = (s.writeSt b).setSequencer ph s.mode r) ∨
       ∃ b, s.phase = .final ∧ t = ((s.writeSt b).setSequencer .idle s.mode 0).complete) := by
  have key : ∀ r : Fin 11, (1 ≤ r.val ∧ r.val ≤ 8 → 1 ≤ (r + 1).val ∧ (r + 1).val ≤ 9) ∧
      (2 ≤ r.val ∧ r.val ≤ 9 → 1 ≤ (r - 1).val ∧ (r - 1).val ≤ 9) := by decide
  unfold engineStep at h
  split at h <;> rename_i e1 e2
  · cases h
  all_goals
    split at h <;> rename_i hr
    · cases h
      simp only [SequencerLegal, sequencerLegal, e1, e2, State.setSequencer_phase, State.setSequencer_mode,
        State.setSequencer_rnd, State.complete_phase, State.complete_mode, State.complete_rnd]
      refine ⟨by first | (rw [hr]; rfl) | exact decide_eq_true (by omega), by simp,
        by first | rfl | exact decide_eq_true ((key _).1 hr) | exact decide_eq_true ((key _).2 hr), ?_⟩
      first
      | exact .inl ⟨_, _, _, by simp, rfl⟩
      | exact .inr ⟨_, trivial, rfl⟩
    · first
      | cases h
      | (split at h <;> rename_i hr'
         · cases h
           simp only [SequencerLegal, sequencerLegal, e1, e2, State.setSequencer_phase, State.setSequencer_mode,
             State.setSequencer_rnd]
           exact ⟨by rw [hr']; rfl, by simp, by trivial, .inl ⟨_, _, _, by simp, rfl⟩⟩
         · cases h)

/-- A step of the sequencer is an engine step, or the stop of a sequencer without a row. -/
theorem sequencerStep_cases (s : State) :
    (∃ t, engineStep s = some t ∧ sequencerStep s = .next t) ∨
      (engineStep s = none ∧ sequencerStep s = .fault .sequencerStuck) := by
  unfold sequencerStep
  cases engineStep s <;> simp

end Sys2Proof.Laws
end

