-- ==== Sys2Proof/Laws/Operands.lean ====
section
/-! SUPPORT. The operand forms: how words are made of bytes and coefficients, what storing a word changes, and
the bytes of a serialised polynomial. -/

namespace Sys2Proof.Laws

open Machine

theorem wordByte_toNat (v : Word) (j : Nat) : (wordByte v j).toNat = v.toNat / 2 ^ (8 * j) % 256 := by
  simp [wordByte]

theorem wordByte_eq (v : Word) (j : Nat) : wordByte v j = v.extractLsb' (8 * j) 8 :=
  BitVec.eq_of_toNat_eq (by simp [wordByte, Nat.shiftRight_eq_div_pow])

theorem wordOfBytes_toNat (b0 b1 b2 b3 : Byte) :
    (wordOfBytes b0 b1 b2 b3).toNat = b0.toNat + b1.toNat * 2 ^ 8 + b2.toNat * 2 ^ 16 + b3.toNat * 2 ^ 24 := by
  have h0 := b0.isLt
  have h1 := b1.isLt
  have h2 := b2.isLt
  simp only [wordOfBytes, BitVec.toNat_append]
  rw [Nat.shiftLeft_eq, Nat.shiftLeft_eq, Nat.shiftLeft_eq,
    Nat.mul_comm _ (2 ^ 8), ← Nat.two_pow_add_eq_or_of_lt (by omega),
    Nat.mul_comm _ (2 ^ 8), ← Nat.two_pow_add_eq_or_of_lt (by omega),
    Nat.mul_comm _ (2 ^ 8), ← Nat.two_pow_add_eq_or_of_lt (by omega)]
  omega

/-- The bytes of a word made of bytes, the first in bits 7:0. -/
theorem wordOfBytes_bytes (b0 b1 b2 b3 : Byte) :
    (wordOfBytes b0 b1 b2 b3).extractLsb' 0 8 = b0 ∧ (wordOfBytes b0 b1 b2 b3).extractLsb' 8 8 = b1 ∧
      (wordOfBytes b0 b1 b2 b3).extractLsb' 16 8 = b2 ∧ (wordOfBytes b0 b1 b2 b3).extractLsb' 24 8 = b3 := by
  have h0 := b0.isLt
  have h1 := b1.isLt
  have h2 := b2.isLt
  have h3 := b3.isLt
  have h := wordOfBytes_toNat b0 b1 b2 b3
  refine ⟨?_, ?_, ?_, ?_⟩ <;> refine BitVec.eq_of_toNat_eq ?_ <;>
    simp only [BitVec.extractLsb'_toNat, Nat.shiftRight_eq_div_pow, h] <;> omega

/-- A word is made of its own four bytes. -/
theorem wordOfBytes_wordByte (v : Word) :
    wordOfBytes (wordByte v 0) (wordByte v 1) (wordByte v 2) (wordByte v 3) = v := by
  have := v.isLt
  refine BitVec.eq_of_toNat_eq ?_
  simp only [wordOfBytes_toNat, wordByte_toNat]
  omega

/-- What storing a word in a byte-array register makes of each byte. -/
@[simp] theorem storeWord_getElem {n : Nat} (x : Vector Byte n) (k : Nat) (v : Word) (i : Nat) (h : i < n) :
    (storeWord x k v)[i] = if k ≤ i ∧ i < k + 4 then wordByte v (i - k) else x[i] := by
  simp [storeWord]

/-- Reading back the word just stored. -/
theorem loadWord_storeWord {n : Nat} (x : Vector Byte n) (k : Nat) (v : Word) (h : k + 4 ≤ n) :
    loadWord (storeWord x k v).toList k = v := by
  have e (j : Nat) (hj : j < 4) : (storeWord x k v).toList.getD (k + j) 0 = wordByte v j := by
    rw [List.getD_eq_getElem _ _ (by simp; omega)]
    simp [hj]
  have e0 := e 0 (by omega)
  rw [Nat.add_zero] at e0
  rw [loadWord, e0, e 1 (by omega), e 2 (by omega), e 3 (by omega), wordOfBytes_wordByte]

theorem coeffAt_lt (f : Poly) {j : Nat} (h : j < 256) : coeffAt f j = f[j].toNat := by
  simp [coeffAt, List.getD, h]

theorem coeffAt_ge (f : Poly) {j : Nat} (h : 256 ≤ j) : coeffAt f j = 0 := by
  simp [coeffAt, List.getD, h]

theorem loadCoeffs_toNat (f : Poly) (w : Nat) :
    (loadCoeffs f w).toNat = coeffAt f (2 * w) + coeffAt f (2 * w + 1) * 2 ^ 16 := by
  have h0 := (f.toList.getD (2 * w) 0).isLt
  have h1 := (f.toList.getD (2 * w + 1) 0).isLt
  simp only [loadCoeffs, coeffAt, BitVec.toNat_ofNat]
  omega

/-- What storing a polynomial word makes of each coefficient. -/
@[simp] theorem storeCoeffs_getElem (f : Poly) (w : Nat) (v : Word) (j : Nat) (h : j < 256) :
    (storeCoeffs f w v)[j] = if j = 2 * w then BitVec.ofNat 12 (lowHalf v)
      else if j = 2 * w + 1 then BitVec.ofNat 12 (highHalf v) else f[j] := by
  simp [storeCoeffs]

/-- Reading back the polynomial word just stored. -/
theorem loadCoeffs_storeCoeffs (f : Poly) (w : Nat) (v : Word) (hw : w < 128) (hl : lowHalf v < 3329)
    (hh : highHalf v < 3329) : loadCoeffs (storeCoeffs f w v) w = v := by
  refine BitVec.eq_of_toNat_eq ?_
  rw [loadCoeffs_toNat, coeffAt_lt _ (by omega), coeffAt_lt _ (by omega)]
  simp only [storeCoeffs_getElem, if_true, BitVec.toNat_ofNat]
  rw [if_neg (by omega)]
  simp only [lowHalf, highHalf, BitVec.toNat_ofNat] at *
  omega

theorem ser_length (f : Poly) : (ser f).length = 512 := by
  rw [ser, List.length_flatMap]; simp only [List.length_cons, List.length_nil, List.map_const', List.sum_replicate,
    Vector.length_toList, smul_eq_mul]

/-- Entry 2j and 2j + 1 of a list serialised two bytes an element. -/
theorem flatMap_pair_getD (l : List Coeff) (a b : Coeff → Byte) (j : Nat) (h : j < l.length) :
    (l.flatMap fun c => [a c, b c]).getD (2 * j) 0 = a l[j] ∧
      (l.flatMap fun c => [a c, b c]).getD (2 * j + 1) 0 = b l[j] := by
  induction l generalizing j with
  | nil => simp at h
  | cons c l ih =>
    cases j with
    | zero => simp
    | succ n => simpa [Nat.mul_succ, Nat.add_right_comm] using ih n (by simpa using h)

/-- Ser puts coefficient j in bytes 2j and 2j + 1, low byte first. -/
theorem ser_getD (f : Poly) (j : Fin 256) :
    ((ser f).getD (2 * j.val) 0).toNat + 256 * ((ser f).getD (2 * j.val + 1) 0).toNat = f[j].toNat := by
  have h := flatMap_pair_getD f.toList (fun c => BitVec.ofNat 8 c.toNat) (fun c => BitVec.ofNat 8 (c.toNat / 2 ^ 8))
    j.val (by simp)
  have := f[j].isLt
  rw [ser, h.1, h.2]
  simp only [Vector.getElem_toList, BitVec.toNat_ofNat, Fin.getElem_fin] at *
  omega

end Sys2Proof.Laws
end

