-- ==== Sys2Proof/Laws/PerInstr.lean ====
section
/-! SUPPORT. Per instruction: the word the encoder gives is matched by a row of the opcode map whose command,
read back from the word, is the instruction. -/

namespace Sys2Proof.Laws.EncodesItsRow

/-- The encoder writes the instruction's own row of the opcode map, and the row reads every operand back. -/
def Statement (i : Instr) : Prop :=
  ∃ row ∈ opcodeMap, rowMatches (encode i) row = true ∧ row.command (encode i) = i

theorem nop : Statement .nop :=
  ⟨⟨0x00000000#32, 0xFFFFFFFF#32, fun _ => .nop⟩, by simp [opcodeMap, rowsSystem], by decide, rfl⟩

theorem clrerr : Statement .clrerr :=
  ⟨⟨0x00000001#32, 0xFFFFFFFF#32, fun _ => .clrerr⟩, by simp [opcodeMap, rowsSystem], by decide, rfl⟩

theorem keyexp : Statement .keyexp :=
  ⟨⟨0x00000010#32, 0xFFFFFFFF#32, fun _ => .keyexp⟩, by simp [opcodeMap, rowsAes], by decide, rfl⟩

theorem ark (ridx : BitVec 4) : Statement (.ark ridx) := by
  have e : encode (.ark ridx) = packFields 0x11 ridx.toNat 0 0 := rfl
  have h := packFields_toNat_nibbles 0x11 ridx.toNat 0 0 (by decide) ridx.isLt (by decide) (by decide)
  have := ridx.isLt
  refine ⟨⟨0x00000011#32, 0xFFFFF0FF#32, fun w => .ark (fieldRidx w)⟩, by simp [opcodeMap, rowsAes],
    rowMatches_of_bits _ _ fun i => ?_, ?_⟩
  · rw [e, packFields_bit_nibbles _ _ _ _ _ (by decide) ridx.isLt (by decide) (by decide) i.isLt]
    fin_cases i <;> simp <;> rfl
  · simp only [e, fieldRidx, field, h, Instr.ark.injEq]
    exact BitVec.eq_of_toNat_eq (by simp only [BitVec.toNat_ofNat]; omega)

theorem subb : Statement .subb :=
  ⟨⟨0x00000012#32, 0xFFFFFFFF#32, fun _ => .subb⟩, by simp [opcodeMap, rowsAes], by decide, rfl⟩

theorem isubb : Statement .isubb :=
  ⟨⟨0x00000013#32, 0xFFFFFFFF#32, fun _ => .isubb⟩, by simp [opcodeMap, rowsAes], by decide, rfl⟩

theorem shrow : Statement .shrow :=
  ⟨⟨0x00000014#32, 0xFFFFFFFF#32, fun _ => .shrow⟩, by simp [opcodeMap, rowsAes], by decide, rfl⟩

theorem ishrow : Statement .ishrow :=
  ⟨⟨0x00000015#32, 0xFFFFFFFF#32, fun _ => .ishrow⟩, by simp [opcodeMap, rowsAes], by decide, rfl⟩

theorem mixc : Statement .mixc :=
  ⟨⟨0x00000016#32, 0xFFFFFFFF#32, fun _ => .mixc⟩, by simp [opcodeMap, rowsAes], by decide, rfl⟩

theorem imixc : Statement .imixc :=
  ⟨⟨0x00000017#32, 0xFFFFFFFF#32, fun _ => .imixc⟩, by simp [opcodeMap, rowsAes], by decide, rfl⟩

theorem enc : Statement .enc :=
  ⟨⟨0x00000018#32, 0xFFFFFFFF#32, fun _ => .enc⟩, by simp [opcodeMap, rowsAes], by decide, rfl⟩

theorem dec : Statement .dec :=
  ⟨⟨0x00000019#32, 0xFFFFFFFF#32, fun _ => .dec⟩, by simp [opcodeMap, rowsAes], by decide, rfl⟩

theorem gfmul (a : Byte) (b : Byte) : Statement (.gfmul a b) := by
  have e : encode (.gfmul a b) = packFields 0x20 a.toNat 0 b.toNat := rfl
  have h := packFields_toNat_bytes 0x20 a.toNat b.toNat (by decide) a.isLt b.isLt
  have := a.isLt
  have := b.isLt
  refine ⟨⟨0x00000020#32, 0xFF0000FF#32, fun w => .gfmul (fieldImmA w) (fieldImmB w)⟩, by simp [opcodeMap, rowsField],
    rowMatches_of_bits _ _ fun i => ?_, ?_⟩
  · rw [e, packFields_bit_bytes _ _ _ _ (by decide) a.isLt b.isLt i.isLt]
    fin_cases i <;> simp <;> rfl
  · simp only [e, fieldImmA, fieldImmB, field, h, Instr.gfmul.injEq]
    exact ⟨BitVec.eq_of_toNat_eq (by simp only [BitVec.toNat_ofNat]; omega),
      BitVec.eq_of_toNat_eq (by simp only [BitVec.toNat_ofNat]; omega)⟩

theorem sbox (a : Byte) : Statement (.sbox a) := by
  have e : encode (.sbox a) = packFields 0x21 a.toNat 0 0 := rfl
  have h := packFields_toNat_bytes 0x21 a.toNat 0 (by decide) a.isLt (by decide)
  have := a.isLt
  refine ⟨⟨0x00000021#32, 0xFFFF00FF#32, fun w => .sbox (fieldImmA w)⟩, by simp [opcodeMap, rowsField],
    rowMatches_of_bits _ _ fun i => ?_, ?_⟩
  · rw [e, packFields_bit_bytes _ _ _ _ (by decide) a.isLt (by decide) i.isLt]
    fin_cases i <;> simp <;> rfl
  · simp only [e, fieldImmA, field, h, Instr.sbox.injEq]
    exact BitVec.eq_of_toNat_eq (by simp only [BitVec.toNat_ofNat]; omega)

theorem isbox (a : Byte) : Statement (.isbox a) := by
  have e : encode (.isbox a) = packFields 0x22 a.toNat 0 0 := rfl
  have h := packFields_toNat_bytes 0x22 a.toNat 0 (by decide) a.isLt (by decide)
  have := a.isLt
  refine ⟨⟨0x00000022#32, 0xFFFF00FF#32, fun w => .isbox (fieldImmA w)⟩, by simp [opcodeMap, rowsField],
    rowMatches_of_bits _ _ fun i => ?_, ?_⟩
  · rw [e, packFields_bit_bytes _ _ _ _ (by decide) a.isLt (by decide) i.isLt]
    fin_cases i <;> simp <;> rfl
  · simp only [e, fieldImmA, field, h, Instr.isbox.injEq]
    exact BitVec.eq_of_toNat_eq (by simp only [BitVec.toNat_ofNat]; omega)

theorem padd (rd : PReg) (ra : PReg) (rb : PReg) : Statement (.padd rd ra rb) := by
  have e : encode (.padd rd ra rb) = packFields 0x30 rd.val ra.val rb.val := rfl
  have h := packFields_toNat_nibbles 0x30 rd.val ra.val rb.val (by decide) rd.isLt ra.isLt rb.isLt
  have := rd.isLt
  have := ra.isLt
  have := rb.isLt
  refine ⟨⟨0x00000030#32, 0xFFF000FF#32, fun w => .padd (fieldRd w) (fieldRa w) (fieldRb w)⟩, by simp [opcodeMap, rowsRing],
    rowMatches_of_bits _ _ fun i => ?_, ?_⟩
  · rw [e, packFields_bit_nibbles _ _ _ _ _ (by decide) rd.isLt ra.isLt rb.isLt i.isLt]
    fin_cases i <;> simp <;> rfl
  · simp only [e, fieldRd, fieldRa, fieldRb, field, h, Instr.padd.injEq]
    exact ⟨Fin.ext (by simp only [Fin.val_ofNat]; omega),
      Fin.ext (by simp only [Fin.val_ofNat]; omega),
      Fin.ext (by simp only [Fin.val_ofNat]; omega)⟩

theorem psub (rd : PReg) (ra : PReg) (rb : PReg) : Statement (.psub rd ra rb) := by
  have e : encode (.psub rd ra rb) = packFields 0x31 rd.val ra.val rb.val := rfl
  have h := packFields_toNat_nibbles 0x31 rd.val ra.val rb.val (by decide) rd.isLt ra.isLt rb.isLt
  have := rd.isLt
  have := ra.isLt
  have := rb.isLt
  refine ⟨⟨0x00000031#32, 0xFFF000FF#32, fun w => .psub (fieldRd w) (fieldRa w) (fieldRb w)⟩, by simp [opcodeMap, rowsRing],
    rowMatches_of_bits _ _ fun i => ?_, ?_⟩
  · rw [e, packFields_bit_nibbles _ _ _ _ _ (by decide) rd.isLt ra.isLt rb.isLt i.isLt]
    fin_cases i <;> simp <;> rfl
  · simp only [e, fieldRd, fieldRa, fieldRb, field, h, Instr.psub.injEq]
    exact ⟨Fin.ext (by simp only [Fin.val_ofNat]; omega),
      Fin.ext (by simp only [Fin.val_ofNat]; omega),
      Fin.ext (by simp only [Fin.val_ofNat]; omega)⟩

theorem pmul (rd : PReg) (ra : PReg) (rb : PReg) : Statement (.pmul rd ra rb) := by
  have e : encode (.pmul rd ra rb) = packFields 0x32 rd.val ra.val rb.val := rfl
  have h := packFields_toNat_nibbles 0x32 rd.val ra.val rb.val (by decide) rd.isLt ra.isLt rb.isLt
  have := rd.isLt
  have := ra.isLt
  have := rb.isLt
  refine ⟨⟨0x00000032#32, 0xFFF000FF#32, fun w => .pmul (fieldRd w) (fieldRa w) (fieldRb w)⟩, by simp [opcodeMap, rowsRing],
    rowMatches_of_bits _ _ fun i => ?_, ?_⟩
  · rw [e, packFields_bit_nibbles _ _ _ _ _ (by decide) rd.isLt ra.isLt rb.isLt i.isLt]
    fin_cases i <;> simp <;> rfl
  · simp only [e, fieldRd, fieldRa, fieldRb, field, h, Instr.pmul.injEq]
    exact ⟨Fin.ext (by simp only [Fin.val_ofNat]; omega),
      Fin.ext (by simp only [Fin.val_ofNat]; omega),
      Fin.ext (by simp only [Fin.val_ofNat]; omega)⟩

theorem psampu (rp : PReg) : Statement (.psampu rp) := by
  have e : encode (.psampu rp) = packFields 0x33 rp.val 0 0 := rfl
  have h := packFields_toNat_nibbles 0x33 rp.val 0 0 (by decide) rp.isLt (by decide) (by decide)
  have := rp.isLt
  refine ⟨⟨0x00000033#32, 0xFFFFF0FF#32, fun w => .psampu (fieldRd w)⟩, by simp [opcodeMap, rowsRing],
    rowMatches_of_bits _ _ fun i => ?_, ?_⟩
  · rw [e, packFields_bit_nibbles _ _ _ _ _ (by decide) rp.isLt (by decide) (by decide) i.isLt]
    fin_cases i <;> simp <;> rfl
  · simp only [e, fieldRd, field, h, Instr.psampu.injEq]
    exact Fin.ext (by simp only [Fin.val_ofNat]; omega)

theorem psampn (rp : PReg) : Statement (.psampn rp) := by
  have e : encode (.psampn rp) = packFields 0x34 rp.val 0 0 := rfl
  have h := packFields_toNat_nibbles 0x34 rp.val 0 0 (by decide) rp.isLt (by decide) (by decide)
  have := rp.isLt
  refine ⟨⟨0x00000034#32, 0xFFFFF0FF#32, fun w => .psampn (fieldRd w)⟩, by simp [opcodeMap, rowsRing],
    rowMatches_of_bits _ _ fun i => ?_, ?_⟩
  · rw [e, packFields_bit_nibbles _ _ _ _ _ (by decide) rp.isLt (by decide) (by decide) i.isLt]
    fin_cases i <;> simp <;> rfl
  · simp only [e, fieldRd, field, h, Instr.psampn.injEq]
    exact Fin.ext (by simp only [Fin.val_ofNat]; omega)

theorem msamp : Statement .msamp :=
  ⟨⟨0x00000035#32, 0xFFFFFFFF#32, fun _ => .msamp⟩, by simp [opcodeMap, rowsRing], by decide, rfl⟩

theorem penc (rp : PReg) : Statement (.penc rp) := by
  have e : encode (.penc rp) = packFields 0x36 rp.val 0 0 := rfl
  have h := packFields_toNat_nibbles 0x36 rp.val 0 0 (by decide) rp.isLt (by decide) (by decide)
  have := rp.isLt
  refine ⟨⟨0x00000036#32, 0xFFFFF0FF#32, fun w => .penc (fieldRd w)⟩, by simp [opcodeMap, rowsRing],
    rowMatches_of_bits _ _ fun i => ?_, ?_⟩
  · rw [e, packFields_bit_nibbles _ _ _ _ _ (by decide) rp.isLt (by decide) (by decide) i.isLt]
    fin_cases i <;> simp <;> rfl
  · simp only [e, fieldRd, field, h, Instr.penc.injEq]
    exact Fin.ext (by simp only [Fin.val_ofNat]; omega)

theorem pdec (rp : PReg) : Statement (.pdec rp) := by
  have e : encode (.pdec rp) = packFields 0x37 rp.val 0 0 := rfl
  have h := packFields_toNat_nibbles 0x37 rp.val 0 0 (by decide) rp.isLt (by decide) (by decide)
  have := rp.isLt
  refine ⟨⟨0x00000037#32, 0xFFFFF0FF#32, fun w => .pdec (fieldRd w)⟩, by simp [opcodeMap, rowsRing],
    rowMatches_of_bits _ _ fun i => ?_, ?_⟩
  · rw [e, packFields_bit_nibbles _ _ _ _ _ (by decide) rp.isLt (by decide) (by decide) i.isLt]
    fin_cases i <;> simp <;> rfl
  · simp only [e, fieldRd, field, h, Instr.pdec.injEq]
    exact Fin.ext (by simp only [Fin.val_ofNat]; omega)

theorem khash (sel : Side) (ra : PReg) (rb : PReg) : Statement (.khash sel ra rb) := by
  have e : encode (.khash sel ra rb) = packFields 0x38 sel.bit ra.val rb.val := rfl
  have h := packFields_toNat_nibbles 0x38 sel.bit ra.val rb.val (by decide) (by cases sel <;> decide) ra.isLt rb.isLt
  have := ra.isLt
  have := rb.isLt
  refine ⟨⟨0x00000038#32, 0xFFF00EFF#32, fun w => .khash (fieldSel w) (fieldRa w) (fieldRb w)⟩, by simp [opcodeMap, rowsRing],
    rowMatches_of_bits _ _ fun i => ?_, ?_⟩
  · rw [e, packFields_bit_nibbles _ _ _ _ _ (by decide) (by cases sel <;> decide) ra.isLt rb.isLt i.isLt]
    cases sel <;> fin_cases i <;> simp [Side.bit] <;> rfl
  · simp only [e, fieldSel, fieldRa, fieldRb, field, h, Instr.khash.injEq]
    cases sel <;> simp only [Side.bit, reduceCtorEq, if_true, if_false]
    all_goals
      refine ⟨?_, Fin.ext ?_, Fin.ext ?_⟩
      · first | rw [if_pos (by omega)] | rw [if_neg (by omega)]
      · simp only [Fin.val_ofNat]; omega
      · simp only [Fin.val_ofNat]; omega

theorem keygen : Statement .keygen :=
  ⟨⟨0x00000040#32, 0xFFFFFFFF#32, fun _ => .keygen⟩, by simp [opcodeMap, rowsKem], by decide, rfl⟩

theorem encaps : Statement .encaps :=
  ⟨⟨0x00000041#32, 0xFFFFFFFF#32, fun _ => .encaps⟩, by simp [opcodeMap, rowsKem], by decide, rfl⟩

theorem decaps : Statement .decaps :=
  ⟨⟨0x00000042#32, 0xFFFFFFFF#32, fun _ => .decaps⟩, by simp [opcodeMap, rowsKem], by decide, rfl⟩

theorem ss2key (sel : Side) : Statement (.ss2key sel) := by
  refine ⟨⟨0x00000043#32, 0xFFFFFEFF#32, fun w => .ss2key (fieldSel w)⟩, by simp [opcodeMap, rowsKem], ?_, ?_⟩ <;>
    cases sel <;> decide

end Sys2Proof.Laws.EncodesItsRow
end

