-- ==== Sys2Proof/Laws/Ring.lean ====
section
/-! SUPPORT. The ring, message and sampler functions: every coefficient they give, and that it is below Q. -/

namespace Sys2Proof.Laws

open Machine

theorem coeffOfInt_toNat (x : Int) : ((coeffOfInt x).toNat : Int) = x % 3329 := by
  have h0 : 0 ≤ x % 3329 := Int.emod_nonneg _ (by decide)
  have h1 : x % 3329 < 3329 := Int.emod_lt_of_pos _ (by decide)
  simp only [coeffOfInt, ringQ, BitVec.toNat_ofNat]
  omega

theorem coeffOfInt_lt (x : Int) : (coeffOfInt x).toNat < 3329 := by
  have h := coeffOfInt_toNat x
  have h1 : x % 3329 < 3329 := Int.emod_lt_of_pos _ (by decide)
  omega

/-- The class modulo Q of the canonical representative. -/
theorem coeffOfInt_cast (x : Int) : (((coeffOfInt x).toNat : Nat) : ZMod 3329) = (x : ZMod 3329) := by
  rw [← Int.cast_natCast, coeffOfInt_toNat]
  exact (ZMod.intCast_eq_intCast_iff _ _ 3329).mpr (Int.mod_modEq x 3329)

@[simp] theorem polyAdd_getElem (f g : Poly) (j : Nat) (h : j < 256) :
    (polyAdd f g)[j] = coeffOfInt ((f[j].toNat : Int) + g[j].toNat) := by simp [polyAdd]

@[simp] theorem polySub_getElem (f g : Poly) (j : Nat) (h : j < 256) :
    (polySub f g)[j] = coeffOfInt ((f[j].toNat : Int) - g[j].toNat) := by simp [polySub]

@[simp] theorem polyMul_getElem (f g : Poly) (k : Nat) (h : k < 256) :
    (polyMul f g)[k] = coeffOfInt ((convolution f g k : Int) - convolution f g (k + 256)) := by simp [polyMul]

theorem polyAdd_inRange (f g : Poly) : PolyInRange (polyAdd f g) := fun j => by
  rw [Fin.getElem_fin, polyAdd_getElem _ _ _ j.isLt]; exact coeffOfInt_lt _

theorem polySub_inRange (f g : Poly) : PolyInRange (polySub f g) := fun j => by
  rw [Fin.getElem_fin, polySub_getElem _ _ _ j.isLt]; exact coeffOfInt_lt _

theorem polyMul_inRange (f g : Poly) : PolyInRange (polyMul f g) := fun j => by
  rw [Fin.getElem_fin, polyMul_getElem _ _ _ j.isLt]; exact coeffOfInt_lt _

/-- The convolution as a sum over the indices that add up to t. -/
theorem convolution_eq (f g : Poly) (t : Nat) :
    convolution f g t = ∑ i ∈ Finset.range (t + 1), coeffAt f i * coeffAt g (t - i) := by
  rw [convolution, ← List.sum_toFinset _ List.nodup_range, List.toFinset_range]

@[simp] theorem encodeMessage_getElem (one : Nat) (m : Bytes32) (j : Nat) (h : j < 256) :
    (encodeMessage one m)[j] = if m[j / 8].getLsbD (j % 8) then BitVec.ofNat 12 one else 0#12 := by
  rw [encodeMessage, Vector.getElem_ofFn]; rfl

theorem encodeMessage_inRange (one : Nat) (m : Bytes32) (h : one < 3329) : PolyInRange (encodeMessage one m) :=
  fun j => by
    rw [Fin.getElem_fin, encodeMessage_getElem _ _ _ j.isLt]
    split
    · rw [BitVec.toNat_ofNat, Nat.mod_eq_of_lt (by omega)]; exact h
    · simp

/-- Bit j of a decoded message. -/
theorem decodeMessage_bit (t : Nat) (f : Poly) (j : Fin 256) :
    (decodeMessage t f)[j.val / 8].getLsbD (j.val % 8) = decide (t < f[j].toNat) := by
  have h : j.val % 8 < 8 := Nat.mod_lt _ (by decide)
  have e : 8 * (j.val / 8) + j.val % 8 = j.val := Nat.div_add_mod _ _
  simp [decodeMessage, messageOfBits, h, e]

/-- Two messages with the same 256 bits are equal. -/
theorem message_ext (m n : Bytes32)
    (h : ∀ j : Fin 256, m[j.val / 8].getLsbD (j.val % 8) = n[j.val / 8].getLsbD (j.val % 8)) : m = n := by
  refine Vector.ext fun i hi => BitVec.eq_of_getLsbD_eq fun b hb => ?_
  have := h ⟨8 * i + b, by omega⟩
  have e1 : (8 * i + b) / 8 = i := by omega
  have e2 : (8 * i + b) % 8 = b := by omega
  simpa [e1, e2] using this

theorem sampleUniform_toNat (w : Word) : (sampleUniform w).toNat = w.toNat % 3329 := by
  have := Nat.mod_lt w.toNat (show 0 < 3329 by decide)
  simp only [sampleUniform, BitVec.toNat_ofNat, ringQ]; omega

theorem sampleUniform_lt (w : Word) : (sampleUniform w).toNat < 3329 := by
  rw [sampleUniform_toNat]; exact Nat.mod_lt _ (by decide)

theorem noiseMagnitude_le (cdt : List Nat) (t : Nat) : noiseMagnitude cdt t ≤ cdt.length := List.countP_le_length

theorem sampleNoise_lt (cdt : List Nat) (w : Word) (h : cdt.length ≤ 16) : (sampleNoise cdt w).toNat < 3329 := by
  have := noiseMagnitude_le cdt (w.toNat % 2 ^ 16)
  simp only [sampleNoise, ringQ]
  split <;> rw [BitVec.toNat_ofNat] <;> omega

/-- The build's noise values are coefficients. -/
theorem sampleNoise_build_lt (w : Word) : (sampleNoise Config.cdt w).toNat < 3329 :=
  sampleNoise_lt _ _ (by rw [cdt_length]; exact clamp_le)

/-- The words behind a draw are the next ones. -/
@[simp] theorem portWord_consumeWords (s : State) (n k : Nat) :
    (s.consumeWords n).portWord k = s.portWord (n + k) := by
  simp [State.portWord, State.consumeWords, List.getD, Nat.add_assoc]

end Sys2Proof.Laws
end

