-- ==== Sys2Proof/Laws/Port.lean ====
section
/-! SUPPORT. The window and the host port: where an offset leads, what a write can do, and what a step can do. -/

namespace Sys2Proof.Laws

open Machine

/-- An offset leads to a region only if it is aligned and lies in that region. -/
theorem locate_some {off : Nat} {r : Region} (h : locate off = some r) :
    r ∈ registerMap ∧ off % 4 = 0 ∧ off < 0x4000 ∧ r.first ≤ off ∧ off < r.first + 4 * r.words := by
  unfold locate at h
  split at h <;> rename_i ha
  · have hh : r.holds off = true := List.find?_some (p := fun q : Region => q.holds off) h
    have hh := of_decide_eq_true hh
    have ha := of_decide_eq_true ha
    exact ⟨List.mem_of_find?_eq_some h, ha.1, ha.2, hh.1, hh.2⟩
  · cases h

/-- No two regions of the map overlap, and all lie in the window. -/
theorem registerMap_disjoint : (∀ r ∈ registerMap, r.first + 4 * r.words ≤ 0x4000) ∧
    ∀ r ∈ registerMap, ∀ q ∈ registerMap, r = q ∨ r.first + 4 * r.words ≤ q.first ∨ q.first + 4 * q.words ≤ r.first := by
  decide

/-- An aligned offset in a region leads to that region. -/
theorem locate_of_mem {off : Nat} {r : Region} (hr : r ∈ registerMap) (ha : off % 4 = 0) (h1 : r.first ≤ off)
    (h2 : off < r.first + 4 * r.words) : locate off = some r := by
  have hw := registerMap_disjoint.1 r hr
  have hh : r.holds off = true := decide_eq_true ⟨h1, h2⟩
  have hal : accessAligned off = true := decide_eq_true ⟨ha, by simp only [windowSize]; omega⟩
  cases hl : locate off with
  | none =>
    rw [locate, if_pos hal, List.find?_eq_none] at hl
    exact absurd hh (hl r hr)
  | some q =>
    have hq := locate_some hl
    rcases registerMap_disjoint.2 r hr q hq.1 with e | e | e
    · rw [e]
    · omega
    · omega

/-- No region answers at a misaligned, outside or unmapped offset (20_memory.md R52, R57). -/
theorem locate_none {off : Nat} (h : off % 4 ≠ 0 ∨ 0x4000 ≤ off ∨ (0x18 ≤ off ∧ off ≤ 0x1F) ∨
    (0xF0 ≤ off ∧ off ≤ 0xFF) ∨ (0x1C0 ≤ off ∧ off ≤ 0x1FFF)) : locate off = none := by
  have gap : ∀ r ∈ registerMap, (r.first + 4 * r.words ≤ 0x18 ∨ 0x20 ≤ r.first) ∧
      (r.first + 4 * r.words ≤ 0xF0 ∨ 0x100 ≤ r.first) ∧ (r.first + 4 * r.words ≤ 0x1C0 ∨ 0x2000 ≤ r.first) := by
    decide
  cases hl : locate off with
  | none => rfl
  | some r =>
    have hr := locate_some hl
    have := gap r hr.1
    omega

/-- What a host write can do. -/
theorem hostWrite_cases (off : Nat) (v : Word) (s : State) :
    hostWrite off v s = .next (s.accessErr .badAccess) ∨ hostWrite off v s = issue v s ∨
      (∃ b, hostWrite off v s = .next (s.writeSt b)) ∨ (∃ b, hostWrite off v s = .next (s.writeKey b)) ∨
      (∃ x, hostWrite off v s = .next (s.writeMessage x)) ∨ ∃ rel, hostWrite off v s = .next (writePolyWord rel v s) := by
  unfold hostWrite
  split
  · exact .inl rfl
  split
  · unfold writeReg
    split
    · exact .inr (.inl rfl)
    · exact .inr (.inr (.inl ⟨_, rfl⟩))
    · exact .inr (.inr (.inr (.inl ⟨_, rfl⟩)))
    · exact .inr (.inr (.inr (.inr (.inl ⟨_, rfl⟩))))
    · exact .inr (.inr (.inr (.inr (.inr ⟨_, rfl⟩))))
    all_goals exact .inl rfl
  · exact .inl rfl

/-- What a write of a polynomial word can do: two coefficients below Q, or the error and nothing else. -/
theorem writePolyWord_cases (rel : Nat) (v : Word) (s : State) :
    (lowHalf v < 3329 ∧ highHalf v < 3329 ∧ writePolyWord rel v s =
      s.writePoly (polyIndex rel) (storeCoeffs s.p[polyIndex rel] (polyWord rel) v)) ∨
    (¬ (lowHalf v < 3329 ∧ highHalf v < 3329) ∧ writePolyWord rel v s = s.accessErr .malformedInput) := by
  unfold writePolyWord
  split <;> rename_i h
  · exact .inl ⟨h.1, h.2, rfl⟩
  · exact .inr ⟨h, rfl⟩

/-- What a host read can do: it replies with the word there, or with 0 and the error. -/
theorem hostRead_cases (off : Nat) (s : State) :
    (∃ v, windowWord s off = some v ∧ hostRead off s = s.reply v) ∨
      (windowWord s off = none ∧ hostRead off s = (s.accessErr .badAccess).reply 0#32) := by
  unfold hostRead
  cases h : windowWord s off
  · exact .inr ⟨rfl, rfl⟩
  · exact .inl ⟨_, rfl, rfl⟩

/-- What issuing a word can do: its command, or the error of an ILLEGAL word. -/
theorem issue_cases (w : Word) (s : State) :
    (∃ i, decode w = .command i ∧ issue w s = exec i (s.beginCommand w)) ∨
      ((∃ why, decode w = .illegal why) ∧ issue w s = .next ((s.beginCommand w).raiseErr .illegalCmd)) := by
  unfold issue
  cases h : decode w with
  | command i => exact .inl ⟨i, rfl, rfl⟩
  | illegal why => exact .inr ⟨⟨why, rfl⟩, rfl⟩

/-- What a step can do. -/
theorem advance_cases (s : State) :
    (∃ rest, s.inbox = .reset :: rest ∧ advance s = .next (s.applyReset rest)) ∨
    (s.phase ≠ .idle ∧ advance s = sequencerStep s) ∨
    (s.phase = .idle ∧ s.inbox = [] ∧ advance s = .next s) ∨
    (∃ off rest, s.phase = .idle ∧ s.inbox = .read off :: rest ∧
      advance s = .next (hostRead off (s.setInbox rest))) ∨
    ∃ off v rest, s.phase = .idle ∧ s.inbox = .write off v :: rest ∧
      advance s = hostWrite off v (s.setInbox rest) := by
  unfold advance
  split <;> rename_i h
  · exact .inl ⟨_, h, rfl⟩
  all_goals
    split <;> rename_i hp
    · simp [hp, h]
    · exact .inr (.inl ⟨hp, rfl⟩)

end Sys2Proof.Laws
end

