-- ==== Sys2Proof/Tests/Slice0.lean ====
section
/-! SUPPORT. The model's own tests: ill-formed terms refused, every command's word written out field by field,
single steps against the examples and vectors of spec/, and for every statement with hypotheses a state and
operands that meet them. Expected values come from spec/, the vector or rule named at each test. -/

namespace Sys2Proof.Tests

open Machine Claims

/-! ## Helpers -/

/-- The block a string of hexadecimal digits writes, byte 0 first (00_scope.md R14). -/
def block (x : Nat) : Block := Vector.ofFn fun k : Fin 16 => BitVec.ofNat 8 (x / 2 ^ (8 * (15 - k.val)))

/-- One field of the state an outcome answers, none where it answers no state. -/
def seen {α : Type} (f : State → α) (o : Host.Outcome State Fault Refusal) : Option α :=
  match o with
  | .next t => some (f t)
  | .fault _ => none
  | .refused _ => none

/-- The key of the known-answer vector (95_test_vectors.md V1). -/
def katKey : Block := block 0x000102030405060708090a0b0c0d0e0f

/-- After reset, with a given ST. -/
def withSt (x : Nat) : State := { State.reset with st := block x }

/-- A state with the schedule of the known-answer key and a given ST (95_test_vectors.md V2). -/
def withSchedule (x : Nat) : State := { withSt x with key := katKey, rk := expand katKey, kv := true }

/-- After reset, with the given coefficients in P0 and P1. -/
def withPolys (f g : List (Nat × Nat)) : State :=
  (State.reset.writePoly 0 (Vector.ofFn fun j : Fin 256 => BitVec.ofNat 12 ((f.lookup j.val).getD 0))).writePoly 1
    (Vector.ofFn fun j : Fin 256 => BitVec.ofNat 12 ((g.lookup j.val).getD 0))

/-- After reset, with the words the random port will return first. -/
def withWords (ws : List Word) : State := { State.reset with rndSupplied := ws }

/-- After reset, with something presented at the host port. -/
def withInbox (es : List HostEvent) : State := { State.reset with inbox := es }

/-- The zero polynomial decodes to the zero message, whatever DEC_T is. -/
theorem decodeMessage_zero (t : Nat) : decodeMessage t zeroPoly = zeroBytes32 :=
  Laws.message_ext _ _ fun j => by rw [Laws.decodeMessage_bit]; simp [zeroPoly]

/-! ## Well-formedness -/

/-- The one check: a round index above 10 is no command, 10 is (30_encoding.md R81). -/
theorem test_wellFormed : ¬ WellFormed (.ark 11) ∧ ¬ WellFormed (.ark 15) ∧ WellFormed (.ark 10) ∧ WellFormed (.ark 0) := by
  decide

/-! ## Decoding: words written field by field, high bits first (30_encoding.md R80, R81, R83) -/

theorem test_decode_nop : decode (0b000000000000000000000000#24 ++ 0b00000000#8) = .command .nop := by decide

theorem test_decode_clrerr : decode (0b000000000000000000000000#24 ++ 0b00000001#8) = .command .clrerr := by decide

theorem test_decode_keyexp : decode (0b000000000000000000000000#24 ++ 0b00010000#8) = .command .keyexp := by decide

theorem test_decode_ark : decode (0b00000000000000000000#20 ++ 0b1010#4 ++ 0b00010001#8) = .command (.ark 10) := by decide

theorem test_decode_subb : decode (0b000000000000000000000000#24 ++ 0b00010010#8) = .command .subb := by decide

theorem test_decode_isubb : decode (0b000000000000000000000000#24 ++ 0b00010011#8) = .command .isubb := by decide

theorem test_decode_shrow : decode (0b000000000000000000000000#24 ++ 0b00010100#8) = .command .shrow := by decide

theorem test_decode_ishrow : decode (0b000000000000000000000000#24 ++ 0b00010101#8) = .command .ishrow := by decide

theorem test_decode_mixc : decode (0b000000000000000000000000#24 ++ 0b00010110#8) = .command .mixc := by decide

theorem test_decode_imixc : decode (0b000000000000000000000000#24 ++ 0b00010111#8) = .command .imixc := by decide

theorem test_decode_enc : decode (0b000000000000000000000000#24 ++ 0b00011000#8) = .command .enc := by decide

theorem test_decode_dec : decode (0b000000000000000000000000#24 ++ 0b00011001#8) = .command .dec := by decide

theorem test_decode_gfmul :
    decode (0b00000000#8 ++ 0b10000011#8 ++ 0b01010111#8 ++ 0b00100000#8) = .command (.gfmul 0x57#8 0x83#8) := by decide

theorem test_decode_sbox :
    decode (0b0000000000000000#16 ++ 0b01010011#8 ++ 0b00100001#8) = .command (.sbox 0x53#8) := by decide

theorem test_decode_isbox :
    decode (0b0000000000000000#16 ++ 0b11101101#8 ++ 0b00100010#8) = .command (.isbox 0xED#8) := by decide

/-- PADD P4, P3, P2 (95_test_vectors.md V16: 0x00023430). -/
theorem test_decode_padd :
    decode (0b000000000000#12 ++ 0b0010#4 ++ 0b0011#4 ++ 0b0100#4 ++ 0b00110000#8) = .command (.padd 4 3 2) := by decide

theorem test_decode_psub :
    decode (0b000000000000#12 ++ 0b1010#4 ++ 0b1001#4 ++ 0b1011#4 ++ 0b00110001#8) = .command (.psub 11 9 10) := by decide

theorem test_decode_pmul :
    decode (0b000000000000#12 ++ 0b0001#4 ++ 0b1000#4 ++ 0b1010#4 ++ 0b00110010#8) = .command (.pmul 10 8 1) := by decide

theorem test_decode_psampu :
    decode (0b00000000000000000000#20 ++ 0b1111#4 ++ 0b00110011#8) = .command (.psampu 15) := by decide

theorem test_decode_psampn :
    decode (0b00000000000000000000#20 ++ 0b1101#4 ++ 0b00110100#8) = .command (.psampn 13) := by decide

theorem test_decode_msamp : decode (0b000000000000000000000000#24 ++ 0b00110101#8) = .command .msamp := by decide

theorem test_decode_penc :
    decode (0b00000000000000000000#20 ++ 0b0011#4 ++ 0b00110110#8) = .command (.penc 3) := by decide

theorem test_decode_pdec :
    decode (0b00000000000000000000#20 ++ 0b1011#4 ++ 0b00110111#8) = .command (.pdec 11) := by decide

/-- KHASH 1, P8, P9 (95_test_vectors.md V16: 0x00098138). -/
theorem test_decode_khash : decode (0b000000000000#12 ++ 0b1001#4 ++ 0b1000#4 ++ 0b000#3 ++ 0b1#1 ++ 0b00111000#8) =
    .command (.khash .decapsulation 8 9) := by decide

theorem test_decode_keygen : decode (0b000000000000000000000000#24 ++ 0b01000000#8) = .command .keygen := by decide

theorem test_decode_encaps : decode (0b000000000000000000000000#24 ++ 0b01000001#8) = .command .encaps := by decide

theorem test_decode_decaps : decode (0b000000000000000000000000#24 ++ 0b01000010#8) = .command .decaps := by decide

theorem test_decode_ss2key : decode (0b00000000000000000000000#23 ++ 0b1#1 ++ 0b01000011#8) =
    .command (.ss2key .decapsulation) := by decide

/-- Illegal words (95_test_vectors.md V16): unassigned opcodes, reserved bits, round indices 11 and 15. -/
theorem test_decode_illegal :
    decode 0x0000001A#32 = .illegal .unknownOpcode ∧ decode 0xFFFFFFFF#32 = .illegal .unknownOpcode ∧
    decode 0x00000100#32 = .illegal .reservedBitSet ∧ decode 0x01000020#32 = .illegal .reservedBitSet ∧
    decode 0x00098238#32 = .illegal .reservedBitSet ∧ decode 0x00001011#32 = .illegal .reservedBitSet ∧
    decode 0x00000B11#32 = .illegal .roundIndexAboveTen ∧ decode 0x00000F11#32 = .illegal .roundIndexAboveTen := by decide

/-! ## Single steps against the vectors of spec/ -/

/-- 47_system.md R230: STATUS 0x00000220 before NOP, 0x00000201 after. -/
theorem test_nop : statusWord { State.reset with res := .illegalCmd, ferr := .illegalCmd } = 0x220#32 ∧
    seen statusWord (exec .nop { State.reset with res := .illegalCmd, ferr := .illegalCmd }) = some 0x201#32 := by decide

/-- 47_system.md R231: STATUS 0x00000101 before CLRERR, 0x00000001 after. -/
theorem test_clrerr : statusWord { State.reset with done := true, ferr := .malformedInput } = 0x101#32 ∧
    seen statusWord (exec .clrerr { State.reset with done := true, ferr := .malformedInput }) = some 1#32 := by decide

/-- 42_key_schedule.md R143: RK[1] and RK[10] of the known-answer key. -/
theorem test_keyexp : seen (fun t => (t.rk[1], t.rk[10], t.kv)) (exec .keyexp { State.reset with key := katKey }) =
    some (block 0xd6aa74fdd2af72fadaa678f1d6ab76fe, block 0x13111d7fe3944a17f307a78b4d2b30c5, true) := by decide +kernel

/-- 95_test_vectors.md V8: ST all ff, ARK 10. -/
theorem test_ark : seen (·.st) (exec (.ark 10) (withSchedule 0xffffffffffffffffffffffffffffffff)) =
    some (block 0xeceee2801c6bb5e80cf85874b2d4cf3a) := by decide +kernel

/-- PR3 of 95_test_vectors.md: ARK 0 with KV = 0 leaves ST and records NO_SCHEDULE. -/
theorem test_ark_noSchedule : seen (fun t => (t.st, statusWord t)) (exec (.ark 0) (withSt 5)) =
    some (block 5, 0x330#32) := by decide +kernel

/-- 95_test_vectors.md V7, from ST = 00 01 .. 0f. -/
theorem test_subb : seen (·.st) (exec .subb (withSt 0x000102030405060708090a0b0c0d0e0f)) =
    some (block 0x637c777bf26b6fc53001672bfed7ab76) := by decide +kernel

theorem test_isubb : seen (·.st) (exec .isubb (withSt 0x000102030405060708090a0b0c0d0e0f)) =
    some (block 0x52096ad53036a538bf40a39e81f3d7fb) := by decide +kernel

theorem test_shrow : seen (·.st) (exec .shrow (withSt 0x000102030405060708090a0b0c0d0e0f)) =
    some (block 0x00050a0f04090e03080d02070c01060b) := by decide +kernel

theorem test_ishrow : seen (·.st) (exec .ishrow (withSt 0x000102030405060708090a0b0c0d0e0f)) =
    some (block 0x000d0a0704010e0b0805020f0c090603) := by decide +kernel

theorem test_mixc : seen (·.st) (exec .mixc (withSt 0xd4bf5d30e0b452aeb84111f11e2798e5)) =
    some (block 0x046681e5e0cb199a48f8d37a2806264c) := by decide +kernel

/-- The first column of the inverse matrix: the vector that tells it from its transpose. -/
theorem test_imixc : seen (·.st) (exec .imixc (withSt 0x01000000000000000000000000000000)) =
    some (block 0x0e090d0b000000000000000000000000) := by decide +kernel

/-- 95_test_vectors.md V1, the known-answer vector of the source. -/
theorem test_enc : seen (·.st) (exec .enc (withSchedule 0x00112233445566778899aabbccddeeff)) =
    some (block 0x69c4e0d86a7b0430d8cdb78070b4c55a) := by decide +kernel

/-- The first ROUND step of 95_test_vectors.md V3 (round 1 of the known-answer input). -/
theorem test_enc_round : seen (fun t => (t.st, t.phase, t.rnd))
    (step { withSchedule 0x00102030405060708090a0b0c0d0e0f0 with phase := .round, rnd := 1 }) =
    some (block 0x89d810e8855ace682d1843d8cb128fe4, .round, 2) := by decide +kernel

/-- 95_test_vectors.md V3b. -/
theorem test_dec : seen (·.st) (exec .dec (withSchedule 0x69c4e0d86a7b0430d8cdb78070b4c55a)) =
    some (block 0x00112233445566778899aabbccddeeff) := by decide +kernel

/-- PR3 of 95_test_vectors.md: DEC, as ENC, without a schedule. -/
theorem test_dec_noSchedule : seen (fun t => (t.st, statusWord t)) (exec .dec (withSt 5)) = some (block 5, 0x330#32) := by
  decide +kernel

/-- 95_test_vectors.md V5. -/
theorem test_gfmul : seen (·.bres) (exec (.gfmul 0xFF 0xFF) State.reset) = some 0x13#8 ∧
    seen (·.bres) (exec (.gfmul 0x80 0x02) State.reset) = some 0x1B#8 := by decide

/-- 95_test_vectors.md V6. -/
theorem test_sbox : seen (·.bres) (exec (.sbox 0x10) State.reset) = some 0xCA#8 := by decide

theorem test_isbox : seen (·.bres) (exec (.isbox 0xC9) State.reset) = some 0x12#8 := by decide

/-- 95_test_vectors.md V9, its first rows. -/
theorem test_padd : seen (fun t => (t.p[2][0], t.p[2][1], t.p[2][2]))
    (exec (.padd 2 0 1) (withPolys [(0, 1664), (1, 1665), (2, 3328)] [(0, 1665), (1, 1664), (2, 1)])) =
    some (0, 0, 0) := by decide +kernel

theorem test_psub : seen (fun t => (t.p[2][0], t.p[2][1], t.p[2][2]))
    (exec (.psub 2 0 1) (withPolys [(0, 1664), (1, 1665), (2, 3328)] [(0, 1665), (1, 1664), (2, 1)])) =
    some (3328, 1, 3327) := by decide +kernel

/-- 95_test_vectors.md V9: (2 + 3x^255)(5 + 7x) has constant coefficient 10 − 21 mod Q = 3318. -/
theorem test_pmul : seen (fun t => t.p[2][0]) (exec (.pmul 2 0 1)
    ((State.reset.writePoly 0 ((zeroPoly.set 0 2).set 255 3)).writePoly 1 ((zeroPoly.set 0 5).set 1 7))) =
    some 3318 := by decide +kernel

/-- 45_sampler.md R194's example. -/
theorem test_psampu : seen (fun t => (t.p[5][0], t.p[5][1], t.p[5][2], t.p[5][3], t.p[5][4]))
    (exec (.psampu 5) (withWords [10, 3328, 3329, 3330, 0xFFFFFFFF])) = some (10, 3328, 0, 1, 1352) := by decide +kernel

/-- 95_test_vectors.md V11, the table of clamp 5. -/
theorem test_sampleNoise : ([0x000042D7, 0x000042D8, 0x0001AEC4, 0x0000E788, 0x0000FAF9, 0x0000FF4F, 0x0001FFFF, 0x00010000].map
    fun w : Word => sampleNoise [17112, 44740, 59272, 64249, 65359] w) = [0, 1, 3327, 3, 4, 5, 3324, 0] := by decide

/-- 95_test_vectors.md V11, the reference table; bits 31:17 are ignored. -/
theorem test_sampleNoise_reference : ([0x0000FFC6, 0x0000FFC7, 0x0001FFC7, 0xFFFE0000, 0xFFFEFFFF].map
    fun w : Word => sampleNoise [65479, 65536, 65536, 65536] w) = [0, 1, 3328, 0, 1] := by decide

/-- 45_sampler.md R195: PSAMPN draws 256 words. -/
theorem test_psampn : seen (·.rndDrawn) (exec (.psampn 5) State.reset) = some 256 := by decide

/-- 45_sampler.md R196's example. -/
theorem test_msamp : seen (fun t => (t.m.take 9).toList) (exec .msamp (withWords [0x04030201, 0x08070605, 0, 0, 0, 0, 0, 0])) =
    some [1, 2, 3, 4, 5, 6, 7, 8, 0] := by decide +kernel

/-- 44_poly_ring.md R175's example: ENC_ONE 1665, M[0] = 0x05. -/
theorem test_encodeMessage : ([0, 1, 2, 3].map fun j => coeffAt (encodeMessage 1665 (zeroBytes32.set 0 0x05)) j) =
    [1665, 0, 1665, 0] := by decide +kernel

/-- 44_poly_ring.md R175: PENC of the zero message clears its register and leaves the others. -/
theorem test_penc : seen (fun t => (t.p[1][0], t.p[0][0])) (exec (.penc 1) (withPolys [(0, 7)] [(0, 9)])) =
    some (0, 7) := by decide +kernel

/-- 95_test_vectors.md V10: the threshold corners under DEC_T = 1664 and under DEC_T = 2496. -/
theorem test_decodeMessage :
    (decodeMessage 1664 (withPolys [(1, 1), (2, 832), (3, 1664), (4, 1665), (5, 1666), (6, 2497), (7, 3328)] []).p[0])[0] = 0xF0#8 ∧
    (decodeMessage 2496 (withPolys [(1, 1), (2, 832), (3, 1664), (4, 1665), (5, 1666), (6, 2497), (7, 3328)] []).p[0])[0] =
      0xC0#8 := by decide +kernel

/-- 44_poly_ring.md R176: the zero polynomial decodes to the zero message; DMM against M = 1; RES 0, DONE 1. -/
theorem test_pdec : seen (fun t => (t.mp, statusWord t)) (exec (.pdec 0) { State.reset with m := zeroBytes32.set 0 1 }) =
    some (zeroBytes32, 0x5#32) := by
  have e : exec (.pdec 0) { State.reset with m := zeroBytes32.set 0 1 } =
      .next (State.writeDecoded { State.reset with m := zeroBytes32.set 0 1 } (decodeMessage Config.decT zeroPoly)).complete :=
    rfl
  rw [e, decodeMessage_zero]
  decide +kernel

/-- 95_test_vectors.md V12: the bytes hashed for P8 = 1 + 2x, P9 = 3328, M[0] = 5. -/
theorem test_hashInput : (hashInput ((zeroPoly.set 0 1).set 1 2) (zeroPoly.set 0 3328) (zeroBytes32.set 0 5)).take 4 =
    [1, 0, 2, 0] ∧
    ([512, 513, 1024].map fun k => (hashInput ((zeroPoly.set 0 1).set 1 2) (zeroPoly.set 0 3328)
      (zeroBytes32.set 0 5)).getD k 0) = [0x00, 0x0d, 5] := by decide +kernel

/-- 46_kem.md R212: SSD = SSE when MP = M (here with different registers selected, both zero). -/
theorem test_khash : seen (·.sse) (exec (.khash .encapsulation 8 9) State.reset) =
    seen (·.ssd) (exec (.khash .decapsulation 9 8) State.reset) := rfl

/-- 46_kem.md R213: KEYGEN draws 768 words, and the first ones make A. -/
theorem test_keygen : seen (fun t => (t.rndDrawn, t.p[0][0], t.p[0][1])) (exec .keygen (withWords [3328, 3330])) =
    some (768, 3328, 1) := by decide +kernel

/-- 46_kem.md R214: ENCAPS draws 776 words and leaves P0 to P2. -/
theorem test_encaps : seen (fun t => (t.rndDrawn, t.p[0][0], t.p[1][0])) (exec .encaps (withPolys [(0, 7)] [(0, 9)])) =
    some (776, 7, 9) := by decide +kernel

/-- 46_kem.md R215: DECAPS writes u·s to P10 and v − v' to P11; here s = 0 and v = 7. -/
theorem test_decaps : seen (fun t => (t.rndDrawn, t.p[10][0], t.p[11][0], t.res, t.done))
    (exec .decaps (State.reset.writePoly 9 (Vector.replicate 256 7#12))) = some (0, 0, 7, .ok, true) := by decide +kernel

/-- 46_kem.md R216's example; the schedule is not current any more. -/
theorem test_ss2key : seen (fun t => (t.key, t.kv)) (exec (.ss2key .encapsulation)
    { withSchedule 0 with sse := Vector.ofFn fun k : Fin 32 => BitVec.ofNat 8 k.val }) = some (katKey, false) := by
  decide +kernel

/-- 95_test_vectors.md V14: constants, a misaligned and an unmapped read. -/
theorem test_reads : windowWord State.reset 0x0C = some 0x44560001#32 ∧ windowWord State.reset 0x10 = some 0x0D010100#32 ∧
    windowWord State.reset 0x22 = none ∧ windowWord State.reset 0x1FFC = none ∧
    param1Word 4 1665 1664 = 0x68068104#32 := by decide

/-- 20_memory.md R54: ST byte 0 is in bits 7:0 of the word at 0x20. -/
theorem test_read_st : windowWord (withSt 0x00112233445566778899aabbccddeeff) 0x20 = some 0x33221100#32 := by decide +kernel

/-- 95_test_vectors.md V14: a malformed coefficient stores neither half. -/
theorem test_malformed : seen (fun t => (t.p[0][0], t.ferr)) (step (withInbox [.write 0x2000 0x0D010005])) =
    some (0, .malformedInput) := by decide +kernel

theorem test_poly_write : seen (fun t => windowWord t 0x3FFC) (step (withInbox [.write 0x3FFC 0x00010002])) =
    some (some 0x00010002#32) := by decide +kernel

/-! ## Witnesses: the hypotheses of every statement that has them can be met together -/

/-- Idle, with the given things presented. -/
abbrev idleWith (es : List HostEvent) : State := withInbox es

/-- A running encryption, INITIAL, with a read held behind it. -/
def runningEnc : State := { withSchedule 0 with phase := .initial, inbox := [.read 4] }

theorem witness_DecodeOfEncode : WellFormed (.ark 10) ∧ WellFormed (.khash .decapsulation 15 15) := by decide

theorem witness_EncodeOfDecode : decode 0x00000A11#32 = .command (.ark 10) := by decide

theorem witness_DecodeIsTheOpcodeMap :
    (∃ row ∈ opcodeMap, 0x00000A11#32 &&& row.mask = row.pattern ∧ ¬ (opc 0x00000A11#32 = 0x11 ∧ IndexAboveTen 0x00000A11#32)) ∧
    ¬ Listed 0x1A#32 ∧ ReservedBit 0x100#32 ∧ opc 0xB11#32 = 0x11 ∧ ¬ ReservedBit 0xB11#32 ∧ IndexAboveTen 0xB11#32 := by
  unfold Listed ReservedBit IndexAboveTen
  decide

theorem witness_StepRunsTheDecodedCommand :
    (idleWith [.write 0 0x12#32]).phase = .idle ∧ (idleWith [.write 0 0x12#32]).inbox = .write 0 0x12#32 :: [] ∧
      decode 0x12#32 = .command .subb ∧ decodeTableWord 32 0x12 = some .subb := by decide

theorem witness_IllegalWordChangesNothingElse :
    (idleWith [.write 0 0xB11#32]).phase = .idle ∧ (idleWith [.write 0 0xB11#32]).inbox = .write 0 0xB11#32 :: [] ∧
      decode 0xB11#32 = .illegal .roundIndexAboveTen := by decide

theorem witness_running : SequencerLegal runningEnc ∧ runningEnc.phase ≠ .idle ∧ ¬ ResetPresented runningEnc :=
  ⟨rfl, by decide, fun ⟨_, h⟩ => by simp [runningEnc] at h⟩

theorem witness_IdleEngineHoldsItsState : State.reset.phase = .idle ∧ State.reset.inbox = [] := ⟨rfl, rfl⟩

theorem witness_ResetEventClearsEveryRegister : (idleWith [.reset, .read 4]).inbox = .reset :: [.read 4] ∧
    { runningEnc with inbox := [.reset] }.inbox = .reset :: [] := ⟨rfl, rfl⟩

/-- The first and the last word of the window are mapped. -/
theorem witness_MappedReadHasNoSideEffect : (idleWith [.read 0x3FFC]).phase = .idle ∧
    (idleWith [.read 0x3FFC]).inbox = .read 0x3FFC :: [] ∧ ¬ BadOffset 0x3FFC ∧ ¬ BadOffset 0 := by
  unfold BadOffset; decide

/-- The offsets at the ends of each unmapped and each read-only range. -/
theorem witness_BadAccessRecordsOnly :
    (∀ off ∈ [0x1, 0x18, 0x1C, 0xF0, 0xFC, 0x1C0, 0x1FFC, 0x4000], (idleWith [.read off]).phase = .idle ∧
      (idleWith [.read off]).inbox = .read off :: [] ∧ BadOffset off) ∧
    (∀ off ∈ [0x4, 0x14, 0x40, 0xEC, 0x120, 0x1BC], (idleWith [.write off 1]).phase = .idle ∧
      (idleWith [.write off 1]).inbox = .write off 1 :: [] ∧ ReadOnlyOffset off ∧ ¬ BadOffset off) := by
  unfold BadOffset ReadOnlyOffset; decide

theorem witness_DataWriteStoresItsBytes :
    (∀ w : Fin 4, (idleWith [.write (0x20 + 4 * w.val) 7]).phase = .idle ∧
      (idleWith [.write (0x30 + 4 * w.val) 7]).inbox = .write (0x30 + 4 * w.val) 7 :: []) ∧
    ∀ w : Fin 8, (idleWith [.write (0x100 + 4 * w.val) 7]).inbox = .write (0x100 + 4 * w.val) 7 :: [] :=
  ⟨fun _ => ⟨rfl, rfl⟩, fun _ => rfl⟩

/-- Halves at 3328 are stored; a half at 3329 is not. -/
theorem witness_PolynomialWordWrite : (idleWith [.write (0x2000 + 0x200 * 15 + 4 * 127) 0x0D000D00]).phase = .idle ∧
    ((0x0D000D00#32).extractLsb' 0 16).toNat < 3329 ∧ ((0x0D000D00#32).extractLsb' 16 16).toNat < 3329 ∧
    3329 ≤ ((0x00000D01#32).extractLsb' 0 16).toNat ∧ 3329 ≤ ((0x0D010000#32).extractLsb' 16 16).toNat := by decide

theorem witness_ReadAfterWrite :
    (∀ off ∈ [0x20, 0x3C, 0x100, 0x11C, 0x2000, 0x3FFC], ¬ BadOffset off ∧ ¬ ReadOnlyOffset off ∧ off ≠ 0) ∧
    (idleWith [.write 0x20 7, .read 0x20]).inbox = .write 0x20 7 :: .read 0x20 :: [] ∧
    ∃ t, Host.Core.run core 2 (idleWith [.write 0x20 7, .read 0x20]) = .next t :=
  ⟨by unfold BadOffset ReadOnlyOffset; decide, rfl, _, rfl⟩

theorem witness_SystemCommands : (idleWith [.write 0 0#32]).phase = .idle ∧
    (idleWith [.write 0 0#32]).inbox = .write 0 0#32 :: [] := ⟨rfl, rfl⟩

theorem witness_ArkCommand : (withSchedule 0).kv = true ∧ State.reset.kv = false ∧ 10 < (11#4).toNat ∧
    (∃ t, exec (.ark (BitVec.ofNat 4 (10 : Fin 11).val)) (withSchedule 0) = .next t ∧
      ∃ u, exec (.ark (BitVec.ofNat 4 (10 : Fin 11).val)) t = .next u) :=
  ⟨rfl, rfl, by decide, _, rfl, _, rfl⟩

theorem witness_EveryRoundKeyDeterminesTheKey : (expand katKey)[(10 : Fin 11)] = (expand katKey)[(10 : Fin 11)] := rfl

theorem witness_scheduleReady : (withSchedule 0).kv = true ∧ (withSchedule 0).phase = .idle ∧ (withSchedule 0).rnd = 0 ∧
    State.reset.kv = false := ⟨rfl, rfl, rfl, rfl⟩

theorem witness_CipherIsItsPrimitiveCommands :
    (∃ t, execAll encCommands (withSchedule 0) = .next t) ∧ ∃ t, execAll decCommands (withSchedule 0) = .next t :=
  ⟨⟨_, rfl⟩, ⟨_, rfl⟩⟩

/-- Every row of the sequencer's table is a state. -/
theorem witness_SequencerRows : ∀ r ∈ [(Phase.initial, Mode.encrypt, (0 : Fin 11)), (.round, .encrypt, 1),
      (.round, .encrypt, 8), (.round, .encrypt, 9), (.final, .encrypt, 10), (.initial, .decrypt, 10), (.round, .decrypt, 9),
      (.round, .decrypt, 2), (.round, .decrypt, 1), (.final, .decrypt, 0)],
    ¬ ResetPresented { State.reset with phase := r.1, mode := r.2.1, rnd := r.2.2 } ∧
      sequencerLegal r.1 r.2.1 r.2.2 = true :=
  fun r hr => ⟨fun ⟨_, h⟩ => by simp [State.reset] at h, by revert r; decide⟩

theorem witness_SequencerOffItsTableStops : ¬ SequencerLegal { State.reset with phase := .final, rnd := 3 } ∧
    { State.reset with phase := .final, rnd := 3 }.phase ≠ Phase.idle ∧
    ¬ ResetPresented { State.reset with phase := .final, rnd := 3 } :=
  ⟨by decide, by decide, fun ⟨_, h⟩ => by simp [State.reset] at h⟩

theorem witness_PolyInRange : PolyInRange (Vector.replicate 256 3328#12) := fun j => by simp

theorem witness_NoiseValue : [65479, 65536, 65536, 65536].length ≤ 16 ∧ [65479, 65536, 65536, 65536].Pairwise (· ≤ ·) := by
  decide

theorem witness_WordsConsumed : (∃ t, exec .keygen State.reset = .next t) ∧ ∃ t, exec .enc State.reset = .next t ∧ t.res ≠ .ok :=
  ⟨⟨_, rfl⟩, _, rfl, by decide⟩

theorem witness_EveryStepKeepsInv : Inv State.reset ∧ step State.reset = .next State.reset :=
  ⟨⟨fun d j => by simp [State.reset], fun h => absurd h (by decide), rfl, fun h => absurd h (by decide)⟩, rfl⟩

/-- A command that changes each register: a witness for each clause of RegistersWrittenByTheirCommands. -/
theorem witness_RegistersWrittenByTheirCommands :
    seen (fun t => decide (t.st ≠ State.reset.st)) (exec .subb State.reset) = some true ∧
    seen (fun t => decide (t.key ≠ zeroBlock)) (exec (.ss2key .encapsulation)
      { State.reset with sse := Vector.replicate 32 1 }) = some true ∧
    seen (fun t => decide (t.rk ≠ State.reset.rk ∧ t.kv ≠ false)) (exec .keyexp State.reset) = some true ∧
    seen (fun t => decide (t.bres ≠ 0)) (exec (.sbox 0) State.reset) = some true ∧
    seen (fun t => decide (t.m[0] ≠ 0)) (exec .msamp (withWords [1])) = some true ∧
    seen (fun t => decide (t.p[0][0] ≠ 0)) (exec (.psampu 0) (withWords [1])) = some true ∧
    seen (fun t => decide (t.mode ≠ .encrypt)) (exec .dec (withSchedule 0)) = some true ∧
    seen (fun t => decide (t.ferr = .noSchedule)) (exec .enc State.reset) = some true ∧
    seen (fun t => decide (t.ferr = .ok)) (exec .clrerr { State.reset with ferr := .badAccess }) = some true := by
  decide +kernel

/-- PDEC of the zero polynomial changes an MP that holds 1, and DMM where M holds 1. -/
theorem witness_RegistersWritten_decode : ∃ s t : State, exec (.pdec 0) s = .next t ∧ t.mp ≠ s.mp ∧ t.dmm ≠ s.dmm := by
  refine ⟨{ State.reset with m := zeroBytes32.set 0 1, mp := zeroBytes32.set 0 1 }, _, rfl, ?_, ?_⟩
  · change decodeMessage Config.decT zeroPoly ≠ zeroBytes32.set 0 1
    rw [decodeMessage_zero]; decide +kernel
  · change decodingMismatch (decodeMessage Config.decT zeroPoly) (zeroBytes32.set 0 1) ≠ false
    rw [decodeMessage_zero]; decide +kernel

/-- Flipping a bit of a digest gives another one. -/
theorem flip_ne (x : Bytes32) : x ≠ x.set 0 (x[0] ^^^ 1#8) := fun e => by
  have e0 : x[0] = (x.set 0 (x[0] ^^^ 1#8))[0] := congrArg (fun y : Bytes32 => y[0]) e
  rw [Vector.getElem_set_self] at e0
  generalize x[0] = b at e0
  revert b; decide

/-- A digest register that does not hold the digest is changed by KHASH: SSE by SEL 0, SSD by SEL 1. -/
theorem witness_RegistersWritten_digest :
    (∃ s t : State, exec (.khash .encapsulation 0 0) s = .next t ∧ t.sse ≠ s.sse) ∧
    ∃ s t : State, exec (.khash .decapsulation 0 0) s = .next t ∧ t.ssd ≠ s.ssd := by
  let d := Config.hash256 (hashInput zeroPoly zeroPoly zeroBytes32)
  exact ⟨⟨{ State.reset with sse := d.set 0 (d[0] ^^^ 1#8) }, _, rfl, flip_ne d⟩,
    ⟨{ State.reset with ssd := d.set 0 (d[0] ^^^ 1#8) }, _, rfl, flip_ne d⟩⟩

theorem witness_FirstErrorIsKept : { State.reset with ferr := ResultCode.badAccess }.ferr ≠ .ok ∧
    step { State.reset with ferr := ResultCode.badAccess } = .next { State.reset with ferr := ResultCode.badAccess } :=
  ⟨by decide, rfl⟩

theorem witness_ErrorsArePrecise : ∃ t, exec .enc State.reset = .next t ∧ t.res ≠ .ok := ⟨_, rfl, by decide⟩

theorem witness_FlagsAreNoInputs : ∃ u v, exec .subb State.reset = .next u ∧
    exec .subb { State.reset with dmm := true, res := .badAccess } = .next v := ⟨_, _, rfl, rfl⟩

end Sys2Proof.Tests
end

section
/-! The scope family (00_scope.md): the engine acts only on what is presented at the host port. -/

namespace Sys2Proof.Proofs

open Machine

/-- With the host port empty, only the sequencer can move the state: an idle engine holds it (60_exceptions.md R252),
a running one takes its next engine step. -/
theorem step_of_inbox_nil {s : State} (hin : s.inbox = []) :
    step s = if s.phase = .idle then .next s else sequencerStep s := by
  simp only [step, advance, hin]

/-- Settles O9: the branch of an empty host port, taken at PHASE = IDLE. -/
theorem idleEngineHoldsItsState : Obligations.IdleEngineHoldsItsState :=
  fun _ hidle hin => (step_of_inbox_nil hin).trans (if_pos hidle)

end Sys2Proof.Proofs
end

section
/-! What a command does to the state, said once: the error it raises, if any, and otherwise its register writes
before the end of the command (30_encoding.md R88, 60_exceptions.md R242). -/

namespace Sys2Proof.Machine

/-- The error a command raises, none where it completes: ARK names no round key above 10, and ARK, ENC and DEC need
a schedule (60_exceptions.md R243, R244). -/
def commandError (i : Instr) (s : State) : Option ResultCode :=
  match i with
  | .ark ridx => if ridx.toNat < 11 then (if s.kv then none else some .noSchedule) else some .illegalCmd
  | .enc | .dec => if s.kv then none else some .noSchedule
  | _ => none

/-- The register writes of a command that raises no error, without the end of the command. -/
def commandEffect (i : Instr) (s : State) : State :=
  match i with
  | .nop => s
  | .clrerr => s.clearFerr
  | .keyexp => s.writeSchedule (expand s.key)
  | .ark ridx => s.writeSt (if h : ridx.toNat < 11 then addRoundKey s.st s.rk[ridx.toNat] else s.st)
  | .subb => s.writeSt (subBytes s.st)
  | .isubb => s.writeSt (invSubBytes s.st)
  | .shrow => s.writeSt (shiftRows s.st)
  | .ishrow => s.writeSt (invShiftRows s.st)
  | .mixc => s.writeSt (mixColumns s.st)
  | .imixc => s.writeSt (invMixColumns s.st)
  | .enc => (s.writeSt (encrypt s.st s.rk)).setSequencer .idle .encrypt 0
  | .dec => (s.writeSt (decrypt s.st s.rk)).setSequencer .idle .decrypt 0
  | .gfmul a b => s.writeBres (gfMul a b)
  | .sbox a => s.writeBres (sbox a)
  | .isbox a => s.writeBres (isbox a)
  | .padd rd ra rb => s.writePoly rd (polyAdd s.p[ra] s.p[rb])
  | .psub rd ra rb => s.writePoly rd (polySub s.p[ra] s.p[rb])
  | .pmul rd ra rb => s.writePoly rd (polyMul s.p[ra] s.p[rb])
  | .psampu rp => s.samplePolyUniform rp
  | .psampn rp => s.samplePolyNoise rp
  | .msamp => s.sampleMessage
  | .penc rp => s.encodeInto rp
  | .pdec rp => s.decodeFrom rp
  | .khash sel ra rb => s.hashSecret sel ra rb
  | .keygen => s.keygen
  | .encaps => s.encaps
  | .decaps => s.decaps
  | .ss2key sel => s.writeKey (firstBlock (s.secret sel))

/-- The state a command leaves: the error and nothing else, or its register writes and RES 0, DONE 1. -/
def commandResult (i : Instr) (s : State) : State :=
  match commandError i s with
  | some c => s.raiseErr c
  | none => (commandEffect i s).complete

theorem runSequencer_succ {s t : State} (h : engineStep s = some t) (n : Nat) :
    runSequencer (n + 1) s = runSequencer n t := by
  simp only [runSequencer, h]

section
variable (s : State) (b : Block) (n : Nat)

theorem runSequencer_initial_encrypt : runSequencer (n + 1) ((s.writeSt b).setSequencer .initial .encrypt 0) =
    runSequencer n ((s.writeSt (addRoundKey b s.rk[(0 : Fin 11)])).setSequencer .round .encrypt 1) :=
  runSequencer_succ rfl n

theorem runSequencer_initial_decrypt : runSequencer (n + 1) ((s.writeSt b).setSequencer .initial .decrypt 10) =
    runSequencer n ((s.writeSt (addRoundKey b s.rk[(10 : Fin 11)])).setSequencer .round .decrypt 9) :=
  runSequencer_succ rfl n

theorem runSequencer_round_encrypt {r : Fin 11} (h : 1 ≤ r.val ∧ r.val ≤ 8) :
    runSequencer (n + 1) ((s.writeSt b).setSequencer .round .encrypt r) =
      runSequencer n ((s.writeSt (encryptRound b s.rk[r])).setSequencer .round .encrypt (r + 1)) :=
  runSequencer_succ (by rw [engineStep]; exact if_pos h) n

theorem runSequencer_round_decrypt {r : Fin 11} (h : 2 ≤ r.val ∧ r.val ≤ 9) :
    runSequencer (n + 1) ((s.writeSt b).setSequencer .round .decrypt r) =
      runSequencer n ((s.writeSt (decryptRound b s.rk[r])).setSequencer .round .decrypt (r - 1)) :=
  runSequencer_succ (by rw [engineStep]; exact if_pos h) n

theorem runSequencer_lastRound_encrypt : runSequencer (n + 1) ((s.writeSt b).setSequencer .round .encrypt 9) =
    runSequencer n ((s.writeSt (encryptRound b s.rk[(9 : Fin 11)])).setSequencer .final .encrypt 10) :=
  runSequencer_succ rfl n

theorem runSequencer_lastRound_decrypt : runSequencer (n + 1) ((s.writeSt b).setSequencer .round .decrypt 1) =
    runSequencer n ((s.writeSt (decryptRound b s.rk[(1 : Fin 11)])).setSequencer .final .decrypt 0) :=
  runSequencer_succ rfl n

theorem runSequencer_final_encrypt : runSequencer (n + 1) ((s.writeSt b).setSequencer .final .encrypt 10) =
    runSequencer n ((s.writeSt (encryptFinal b s.rk[(10 : Fin 11)])).setSequencer .idle .encrypt 0).complete :=
  runSequencer_succ rfl n

theorem runSequencer_final_decrypt : runSequencer (n + 1) ((s.writeSt b).setSequencer .final .decrypt 0) =
    runSequencer n ((s.writeSt (decryptFinal b s.rk[(0 : Fin 11)])).setSequencer .idle .decrypt 0).complete :=
  runSequencer_succ rfl n

end

/-- The eleven engine steps of ENC are Encrypt (43_aes_engine.md R150, R152). -/
theorem runSequencer_startEncrypt (s : State) : runSequencer 11 s.startEncrypt =
    .next ((s.writeSt (encrypt s.st s.rk)).setSequencer .idle .encrypt 0).complete := by
  change runSequencer 11 ((s.writeSt s.st).setSequencer .initial .encrypt 0) = _
  rw [runSequencer_initial_encrypt]
  simp (disch := decide) only [runSequencer_round_encrypt, runSequencer_lastRound_encrypt, Fin.reduceAdd]
  rw [runSequencer_final_encrypt]
  simp only [runSequencer, encrypt, middleRounds, List.foldl]
  rfl

/-- The eleven engine steps of DEC are Decrypt (43_aes_engine.md R151, R152). -/
theorem runSequencer_startDecrypt (s : State) : runSequencer 11 s.startDecrypt =
    .next ((s.writeSt (decrypt s.st s.rk)).setSequencer .idle .decrypt 0).complete := by
  change runSequencer 11 ((s.writeSt s.st).setSequencer .initial .decrypt 10) = _
  rw [runSequencer_initial_decrypt]
  simp (disch := decide) only [runSequencer_round_decrypt, runSequencer_lastRound_decrypt, Fin.reduceSub]
  rw [runSequencer_final_decrypt]
  simp only [runSequencer, decrypt, middleRounds, List.reverse_cons, List.reverse_nil, List.nil_append,
    List.cons_append, List.foldl]
  rfl

/-- Every command ends, in every state, with its result. -/
theorem exec_eq (i : Instr) (s : State) : exec i s = .next (commandResult i s) := by
  cases i with
  | ark ridx =>
    by_cases hr : ridx.toNat < 11 <;> cases hkv : s.kv <;>
      simp [exec, execArk, commandResult, commandError, commandEffect, hr, hkv]
  | enc =>
    cases hkv : s.kv
    · simp [exec, execEnc, commandResult, commandError, hkv]
    · simp [exec, execEnc, commandResult, commandError, commandEffect, hkv, runSequencer_startEncrypt]
  | dec =>
    cases hkv : s.kv
    · simp [exec, execDec, commandResult, commandError, hkv]
    · simp [exec, execDec, commandResult, commandError, commandEffect, hkv, runSequencer_startDecrypt]
  | _ => rfl

end Sys2Proof.Machine
end

section
/-! The invariant of the machine (10_state.md R24, R27, R30, R36): one rule per state operation, then per command, per
host transaction and per step. -/

namespace Sys2Proof.Machine

open Laws

theorem storeCoeffs_inRange {f : Poly} {w : Nat} {v : Word} (hf : PolyInRange f) (hlow : lowHalf v < ringQ)
    (hhigh : highHalf v < ringQ) : PolyInRange (storeCoeffs f w v) := fun j => by
  rw [Fin.getElem_fin, storeCoeffs_getElem _ _ _ _ j.isLt]
  split
  · exact (BitVec.toNat_ofNat _ _).trans_lt ((Nat.mod_le _ _).trans_lt hlow)
  split
  · exact (BitVec.toNat_ofNat _ _).trans_lt ((Nat.mod_le _ _).trans_lt hhigh)
  · exact hf j

section
variable {s : State}

theorem Inv.complete (h : Inv s) : Inv s.complete := ⟨h.coeffs, h.schedule, h.sequencer, fun _ => rfl⟩

theorem Inv.raiseErr (h : Inv s) (c : ResultCode) : Inv (s.raiseErr c) :=
  ⟨h.coeffs, h.schedule, h.sequencer, (nomatch ·)⟩

theorem Inv.accessErr (h : Inv s) (c : ResultCode) : Inv (s.accessErr c) :=
  ⟨h.coeffs, h.schedule, h.sequencer, h.done⟩

theorem Inv.clearFerr (h : Inv s) : Inv s.clearFerr := ⟨h.coeffs, h.schedule, h.sequencer, h.done⟩

theorem Inv.beginCommand (h : Inv s) (w : Word) : Inv (s.beginCommand w) :=
  ⟨h.coeffs, h.schedule, h.sequencer, (nomatch ·)⟩

theorem Inv.writeSt (h : Inv s) (b : Block) : Inv (s.writeSt b) := ⟨h.coeffs, h.schedule, h.sequencer, h.done⟩

/-- A write of KEY leaves no schedule behind (10_state.md R23). -/
theorem Inv.writeKey (h : Inv s) (b : Block) : Inv (s.writeKey b) :=
  ⟨h.coeffs, (nomatch ·), h.sequencer, h.done⟩

theorem Inv.writeSchedule (h : Inv s) : Inv (s.writeSchedule (expand s.key)) :=
  ⟨h.coeffs, fun _ => rfl, h.sequencer, h.done⟩

theorem Inv.writeBres (h : Inv s) (b : Byte) : Inv (s.writeBres b) := ⟨h.coeffs, h.schedule, h.sequencer, h.done⟩

theorem Inv.writeMessage (h : Inv s) (x : Bytes32) : Inv (s.writeMessage x) :=
  ⟨h.coeffs, h.schedule, h.sequencer, h.done⟩

theorem Inv.writeDecoded (h : Inv s) (x : Bytes32) : Inv (s.writeDecoded x) :=
  ⟨h.coeffs, h.schedule, h.sequencer, h.done⟩

theorem Inv.writeSecret (h : Inv s) (sel : Side) (x : Bytes32) : Inv (s.writeSecret sel x) := by
  cases sel <;> exact ⟨h.coeffs, h.schedule, h.sequencer, h.done⟩

theorem Inv.consumeWords (h : Inv s) (n : Nat) : Inv (s.consumeWords n) :=
  ⟨h.coeffs, h.schedule, h.sequencer, h.done⟩

theorem Inv.reply (h : Inv s) (v : Word) : Inv (s.reply v) := ⟨h.coeffs, h.schedule, h.sequencer, h.done⟩

theorem Inv.setInbox (h : Inv s) (rest : List HostEvent) : Inv (s.setInbox rest) :=
  ⟨h.coeffs, h.schedule, h.sequencer, h.done⟩

theorem Inv.setSequencer (h : Inv s) {ph : Phase} {md : Mode} {r : Fin 11} (hseq : sequencerLegal ph md r = true) :
    Inv (s.setSequencer ph md r) := ⟨h.coeffs, h.schedule, hseq, h.done⟩

/-- A polynomial register takes any polynomial with its coefficients in [0, Q) (10_state.md R27). -/
theorem Inv.writePoly (h : Inv s) (d : PReg) {f : Poly} (hf : PolyInRange f) : Inv (s.writePoly d f) := by
  refine ⟨fun e => ?_, h.schedule, h.sequencer, h.done⟩
  by_cases hde : d = e
  · rw [← hde, State.writePoly_same]; exact hf
  · rw [State.writePoly_other s d e f hde]; exact h.coeffs e

theorem Inv.samplePoly (h : Inv s) (d : PReg) {sample : Word → Coeff} (hs : ∀ w, (sample w).toNat < ringQ) :
    Inv (s.samplePoly d sample) :=
  (h.writePoly d fun j => by simpa using hs _).consumeWords 256

theorem Inv.samplePolyUniform (h : Inv s) (d : PReg) : Inv (s.samplePolyUniform d) := h.samplePoly d sampleUniform_lt

theorem Inv.samplePolyNoise (h : Inv s) (d : PReg) : Inv (s.samplePolyNoise d) := h.samplePoly d sampleNoise_build_lt

theorem Inv.sampleMessage (h : Inv s) : Inv s.sampleMessage := (h.writeMessage _).consumeWords 8

theorem Inv.encodeInto (h : Inv s) (d : PReg) : Inv (s.encodeInto d) :=
  h.writePoly d (encodeMessage_inRange _ _ encOne_lt)

theorem Inv.decodeFrom (h : Inv s) (a : PReg) : Inv (s.decodeFrom a) := h.writeDecoded _

theorem Inv.hashSecret (h : Inv s) (sel : Side) (a b : PReg) : Inv (s.hashSecret sel a b) := h.writeSecret sel _

theorem Inv.keygen (h : Inv s) : Inv s.keygen :=
  (((h.samplePolyUniform 0).samplePolyUniform 1).samplePolyNoise 3).writePoly 2 (polyAdd_inRange _ _)

theorem Inv.encaps (h : Inv s) : Inv s.encaps := by
  have hsampled := (((h.samplePolyUniform 4).samplePolyNoise 5).samplePolyNoise 6).sampleMessage
  exact (((hsampled.encodeInto 7).writePoly 8 (polyAdd_inRange _ _)).writePoly 9
    (polyAdd_inRange _ _)).hashSecret .encapsulation 8 9

theorem Inv.decaps (h : Inv s) : Inv s.decaps :=
  (((h.writePoly 10 (polyMul_inRange _ _)).writePoly 11 (polySub_inRange _ _)).decodeFrom 11).hashSecret
    .decapsulation 8 9

/-- The register writes of every command keep the invariant. -/
theorem Inv.commandEffect (h : Inv s) (i : Instr) : Inv (commandEffect i s) := by
  cases i with
  | nop => exact h
  | clrerr => exact h.clearFerr
  | keyexp => exact h.writeSchedule
  | ark | subb | isubb | shrow | ishrow | mixc | imixc => exact h.writeSt _
  | enc | dec => exact (h.writeSt _).setSequencer rfl
  | gfmul | sbox | isbox => exact h.writeBres _
  | padd rd => exact h.writePoly rd (polyAdd_inRange _ _)
  | psub rd => exact h.writePoly rd (polySub_inRange _ _)
  | pmul rd => exact h.writePoly rd (polyMul_inRange _ _)
  | psampu rp => exact h.samplePolyUniform rp
  | psampn rp => exact h.samplePolyNoise rp
  | msamp => exact h.sampleMessage
  | penc rp => exact h.encodeInto rp
  | pdec rp => exact h.decodeFrom rp
  | khash sel ra rb => exact h.hashSecret sel ra rb
  | keygen => exact h.keygen
  | encaps => exact h.encaps
  | decaps => exact h.decaps
  | ss2key sel => exact h.writeKey _

theorem Inv.commandResult (h : Inv s) (i : Instr) : Inv (commandResult i s) := by
  unfold Machine.commandResult
  split
  · exact h.raiseErr _
  · exact (h.commandEffect i).complete

theorem Inv.writePolyWord (h : Inv s) (rel : Nat) (v : Word) : Inv (writePolyWord rel v s) := by
  obtain ⟨hlow, hhigh, e⟩ | ⟨-, e⟩ := writePolyWord_cases rel v s
  · rw [e]
    exact h.writePoly _ (storeCoeffs_inRange (h.coeffs _) hlow hhigh)
  · rw [e]
    exact h.accessErr _

theorem Inv.hostRead (h : Inv s) (off : Nat) : Inv (hostRead off s) := by
  obtain ⟨v, -, e⟩ | ⟨-, e⟩ := hostRead_cases off s
  · rw [e]; exact h.reply v
  · rw [e]; exact (h.accessErr _).reply _

end

theorem Inv.reset : Inv State.reset :=
  ⟨fun d j => by simp [State.reset], (nomatch ·), rfl, (nomatch ·)⟩

theorem Inv.applyReset (s : State) (rest : List HostEvent) : Inv (s.applyReset rest) :=
  ⟨Inv.reset.coeffs, Inv.reset.schedule, Inv.reset.sequencer, Inv.reset.done⟩

section
variable {s t : State}

theorem Inv.exec (h : Inv s) {i : Instr} (ht : exec i s = .next t) : Inv t := by
  rw [exec_eq] at ht
  cases ht
  exact h.commandResult i

theorem Inv.issue (h : Inv s) {w : Word} (ht : issue w s = .next t) : Inv t := by
  obtain ⟨i, -, e⟩ | ⟨-, e⟩ := issue_cases w s
  · exact (h.beginCommand w).exec (e ▸ ht)
  · rw [e] at ht
    cases ht
    exact (h.beginCommand w).raiseErr _

theorem Inv.hostWrite (h : Inv s) {off : Nat} {v : Word} (ht : hostWrite off v s = .next t) : Inv t := by
  obtain e | e | ⟨b, e⟩ | ⟨b, e⟩ | ⟨x, e⟩ | ⟨rel, e⟩ := hostWrite_cases off v s <;> rw [e] at ht
  case inr.inl => exact h.issue ht
  all_goals cases ht
  · exact h.accessErr _
  · exact h.writeSt b
  · exact h.writeKey b
  · exact h.writeMessage x
  · exact h.writePolyWord rel v

theorem Inv.engineStep (h : Inv s) (ht : engineStep s = some t) : Inv t := by
  obtain ⟨-, -, hlegal, ⟨b, ph, r, -, rfl⟩ | ⟨b, -, rfl⟩⟩ := engineStep_cases ht
  · exact (h.writeSt b).setSequencer hlegal
  · exact ((h.writeSt b).setSequencer hlegal).complete

theorem Inv.sequencerStep (h : Inv s) (ht : sequencerStep s = .next t) : Inv t := by
  obtain ⟨u, hu, e⟩ | ⟨-, e⟩ := sequencerStep_cases s <;> rw [e] at ht <;> cases ht
  exact h.engineStep hu

/-- Every step of the machine, whatever is presented, keeps the invariant. -/
theorem Inv.step (h : Inv s) (ht : step s = .next t) : Inv t := by
  rw [Machine.step] at ht
  obtain ⟨rest, -, e⟩ | ⟨-, e⟩ | ⟨-, -, e⟩ | ⟨off, rest, -, -, e⟩ | ⟨off, v, rest, -, -, e⟩ := advance_cases s
  all_goals rw [e] at ht
  · cases ht; exact Inv.applyReset s rest
  · exact h.sequencerStep ht
  · cases ht; exact h
  · cases ht; exact (h.setInbox rest).hostRead off
  · exact (h.setInbox rest).hostWrite ht

end

end Sys2Proof.Machine

namespace Sys2Proof.Proofs

open Machine

/-- Settles O53: by the kinds of step, each a composition of state operations that keep the invariant. -/
theorem everyStepKeepsInv : Obligations.EveryStepKeepsInv := fun _ _ h ht => h.step ht

/-- Settles O54. -/
theorem resetHasInv : Obligations.ResetHasInv := Inv.reset

end Sys2Proof.Proofs
end

section
/-! The words of the window outside the data registers: CMD, STATUS and BRES (10_state.md R26, R31, R32), the constant
words (R33), and the state after reset (R34). -/

namespace Sys2Proof.Proofs

open Machine Laws

/-- An aligned offset in a region reads as the region's word there. -/
theorem windowWord_of_mem (s : State) {off : Nat} {r : Region} (hr : r ∈ registerMap) (ha : off % 4 = 0)
    (h1 : r.first ≤ off) (h2 : off < r.first + 4 * r.words) :
    windowWord s off = some (readReg s r.reg (off - r.first)) := by
  rw [windowWord, locate_of_mem hr ha h1 h2, Option.map_some]

section
variable (s : State)

theorem windowWord_cmd : windowWord s 0x00 = some s.cmd := rfl

theorem windowWord_status : windowWord s 0x04 = some (statusWord s) := rfl

theorem windowWord_bres : windowWord s 0x08 = some (s.bres.setWidth 32) :=
  congrArg some (BitVec.ofNat_toNat 32 s.bres)

theorem windowWord_id : windowWord s 0x0C = some idWord := rfl

theorem windowWord_param0 : windowWord s 0x10 = some param0Word := rfl

theorem windowWord_param1 :
    windowWord s 0x14 = some (param1Word Config.clamp Config.encOne Config.decT) := rfl

theorem windowWord_cdt (i : Fin 16) :
    windowWord s (0x180 + 4 * i.val) = some (cdtWindowWord Config.cdt i.val) := by
  rw [windowWord_of_mem s (r := ⟨0x180, 16, .cdt, false⟩) (by decide) (by omega) (by simp) (by simp; omega)]
  simp [readReg]

end

/-- A bit of a word is the digit of its number there. -/
theorem getLsbD_eq_of_toNat {v : Word} {k : Nat} {b : Bool} (h : v.toNat / 2 ^ k % 2 = b.toNat) : v.getLsbD k = b := by
  rw [BitVec.getLsbD, Nat.testBit_eq_decide_div_mod_eq, h]
  cases b <;> rfl

/-- A field of a word is a quotient of its number, cut off at the field's width. -/
theorem extractLsb'_eq_of_toNat {v : Word} {k n : Nat} {x : BitVec n} (h : v.toNat / 2 ^ k % 2 ^ n = x.toNat) :
    v.extractLsb' k n = x :=
  BitVec.eq_of_toNat_eq (by rw [BitVec.extractLsb'_toNat, Nat.shiftRight_eq_div_pow, h])

theorem statusWord_toNat (s : State) : (statusWord s).toNat = s.done.toNat + s.kv.toNat * 2 + s.dmm.toNat * 4 +
    s.res.toBits.toNat * 2 ^ 4 + s.ferr.toBits.toNat * 2 ^ 8 := by
  have := s.done.toNat_le
  have := s.kv.toNat_le
  have := s.dmm.toNat_le
  have := s.res.toBits.isLt
  have := s.ferr.toBits.isLt
  rw [statusWord, BitVec.toNat_ofNat]
  omega

/-- The fields of STATUS (10_state.md R31). -/
theorem statusWord_fields (s : State) :
    (statusWord s).getLsbD 0 = s.done ∧ (statusWord s).getLsbD 1 = s.kv ∧ (statusWord s).getLsbD 2 = s.dmm ∧
      (statusWord s).getLsbD 3 = false ∧ (statusWord s).extractLsb' 4 4 = s.res.toBits ∧
      (statusWord s).extractLsb' 8 4 = s.ferr.toBits ∧ (statusWord s).extractLsb' 12 20 = 0#20 := by
  have h := statusWord_toNat s
  have := s.done.toNat_le
  have := s.kv.toNat_le
  have := s.dmm.toNat_le
  have := s.res.toBits.isLt
  have := s.ferr.toBits.isLt
  refine ⟨getLsbD_eq_of_toNat ?_, getLsbD_eq_of_toNat ?_, getLsbD_eq_of_toNat ?_, getLsbD_eq_of_toNat ?_,
    extractLsb'_eq_of_toNat ?_, extractLsb'_eq_of_toNat ?_, extractLsb'_eq_of_toNat ?_⟩
  case refine_4 => change _ = 0; omega
  case refine_7 => change _ = 0; omega
  all_goals omega

theorem param1Word_toNat {clamp one t : Nat} (hclamp : clamp < 2 ^ 8) (hone : one < 2 ^ 12) (ht : t < 2 ^ 12) :
    (param1Word clamp one t).toNat = clamp + one * 2 ^ 8 + t * 2 ^ 20 := by
  rw [param1Word, BitVec.toNat_ofNat]
  exact Nat.mod_eq_of_lt (by omega)

/-- The fields of PARAM1 where the parameters fit them (10_state.md R33). -/
theorem param1Word_fields {clamp one t : Nat} (hclamp : clamp < 2 ^ 8) (hone : one < 2 ^ 12) (ht : t < 2 ^ 12) :
    ((param1Word clamp one t).extractLsb' 0 8).toNat = clamp ∧
      ((param1Word clamp one t).extractLsb' 8 12).toNat = one ∧
      ((param1Word clamp one t).extractLsb' 20 12).toNat = t := by
  have h := param1Word_toNat hclamp hone ht
  refine ⟨?_, ?_, ?_⟩ <;> rw [BitVec.extractLsb'_toNat, Nat.shiftRight_eq_div_pow, h] <;> omega

/-- A word of the CDT window, as a number (10_state.md R33). -/
theorem cdtWindowWord_toNat (i : Nat) : (i < Config.clamp → (cdtWindowWord Config.cdt i).toNat = Config.cdtAt i) ∧
    (Config.clamp ≤ i → (cdtWindowWord Config.cdt i).toNat = 65536) := by
  refine ⟨fun hi => ?_, fun hi => ?_⟩
  · have := cdtAt_le i
    rw [cdtWindowWord, cdt_getD_lt hi, BitVec.toNat_ofNat]
    omega
  · rw [cdtWindowWord, cdt_getD_ge hi]
    rfl

/-- Settles O14: the fields of STATUS from its number, the rest by evaluation. -/
theorem statusWordLayout : Obligations.StatusWordLayout := fun s =>
  ⟨⟨_, windowWord_status s, statusWord_fields s⟩, windowWord_bres s, windowWord_cmd s, rfl, rfl, rfl, rfl, rfl⟩

/-- Settles O15: the parameters of every build fit their fields (00_scope.md R9). -/
theorem constantWords : Obligations.ConstantWords := by
  have hclamp := clamp_le
  have hone := encOne_lt
  have hdec := decT_lt_encOne
  exact fun s => ⟨windowWord_id s, ⟨_, windowWord_param0 s, rfl, rfl⟩,
    ⟨_, windowWord_param1 s, param1Word_fields (by omega) (by omega) (by omega)⟩, rfl,
    fun i => ⟨_, windowWord_cdt s i, cdtWindowWord_toNat i.val⟩⟩

/-- Settles O11. -/
theorem resetValues : Obligations.ResetValues := by
  refine ⟨fun k => ?_, fun i k => ?_, fun k => ?_, fun i j => ?_, rfl, rfl, rfl, rfl, rfl, rfl, rfl, rfl, rfl, rfl,
    windowWord_id _, windowWord_param0 _, windowWord_param1 _, windowWord_cdt _⟩ <;> simp [State.reset]

end Sys2Proof.Proofs
end

section
/-! Which commands write which register: the column "written by commands" of 10_state.md R20 as a table by command, and
the frame rule of every state operation. -/

namespace Sys2Proof.Machine

/-- What one state operation writes together (10_state.md R20, R37), and what no command writes: CMD, the host's queue
and the replies. -/
inductive RegGroup
  | st | key | rk | kv | bres | m | decoded | sse | ssd | p | ferr | sequencer | port | host

/-- The type of a group's contents. -/
abbrev RegGroup.Contents : RegGroup → Type
  | .st | .key => Block
  | .rk => Schedule
  | .kv => Bool
  | .bres => Byte
  | .m | .sse | .ssd => Bytes32
  | .decoded => Bytes32 × Bool
  | .p => Vector Poly 16
  | .ferr => ResultCode
  | .sequencer => Phase × Mode × Fin 11
  | .port => Nat × List Word
  | .host => Word × List HostEvent × List Word

/-- What a state holds in a group. -/
def RegGroup.read (g : RegGroup) (s : State) : g.Contents :=
  match g with
  | .st => s.st
  | .key => s.key
  | .rk => s.rk
  | .kv => s.kv
  | .bres => s.bres
  | .m => s.m
  | .decoded => (s.mp, s.dmm)
  | .sse => s.sse
  | .ssd => s.ssd
  | .p => s.p
  | .ferr => s.ferr
  | .sequencer => (s.phase, s.mode, s.rnd)
  | .port => (s.rndDrawn, s.rndSupplied)
  | .host => (s.cmd, s.inbox, s.replies)

/-- The group of a side's secret. -/
def secretGroup (sel : Side) : RegGroup :=
  match sel with
  | .encapsulation => .sse
  | .decapsulation => .ssd

/-- The groups a command may write, the record of its end left out (10_state.md R20). -/
def writtenBy (i : Instr) : List RegGroup :=
  match i with
  | .nop => []
  | .clrerr => [.ferr]
  | .keyexp => [.rk, .kv]
  | .ark _ | .subb | .isubb | .shrow | .ishrow | .mixc | .imixc => [.st]
  | .enc | .dec => [.st, .sequencer]
  | .gfmul _ _ | .sbox _ | .isbox _ => [.bres]
  | .padd _ _ _ | .psub _ _ _ | .pmul _ _ _ | .penc _ => [.p]
  | .psampu _ | .psampn _ | .keygen => [.p, .port]
  | .msamp => [.m, .port]
  | .pdec _ => [.decoded]
  | .khash sel _ _ => [secretGroup sel]
  | .encaps => [.p, .port, .m, .sse]
  | .decaps => [.p, .decoded, .ssd]
  | .ss2key _ => [.key, .kv]

@[simp] theorem eq_secretGroup_iff {g : RegGroup} {sel : Side} :
    g = secretGroup sel ↔ g = .sse ∧ sel = .encapsulation ∨ g = .ssd ∧ sel = .decapsulation := by
  cases sel <;> simp [secretGroup]

section
variable {g : RegGroup} {s : State}

@[simp] theorem read_complete : g.read s.complete = g.read s := by cases g <;> rfl

@[simp] theorem read_raiseErr (hg : g ≠ .ferr) (c : ResultCode) : g.read (s.raiseErr c) = g.read s := by
  cases g with
  | ferr => exact absurd rfl hg
  | _ => rfl

@[simp] theorem read_clearFerr (hg : g ≠ .ferr) : g.read s.clearFerr = g.read s := by
  cases g with
  | ferr => exact absurd rfl hg
  | _ => rfl

@[simp] theorem read_writeSt (hg : g ≠ .st) (x : Block) : g.read (s.writeSt x) = g.read s := by
  cases g with
  | st => exact absurd rfl hg
  | _ => rfl

@[simp] theorem read_writeKey (hkey : g ≠ .key) (hkv : g ≠ .kv) (x : Block) : g.read (s.writeKey x) = g.read s := by
  cases g with
  | key => exact absurd rfl hkey
  | kv => exact absurd rfl hkv
  | _ => rfl

@[simp] theorem read_writeSchedule (hrk : g ≠ .rk) (hkv : g ≠ .kv) (x : Schedule) :
    g.read (s.writeSchedule x) = g.read s := by
  cases g with
  | rk => exact absurd rfl hrk
  | kv => exact absurd rfl hkv
  | _ => rfl

@[simp] theorem read_writeBres (hg : g ≠ .bres) (x : Byte) : g.read (s.writeBres x) = g.read s := by
  cases g with
  | bres => exact absurd rfl hg
  | _ => rfl

@[simp] theorem read_writeMessage (hg : g ≠ .m) (x : Bytes32) : g.read (s.writeMessage x) = g.read s := by
  cases g with
  | m => exact absurd rfl hg
  | _ => rfl

@[simp] theorem read_writeDecoded (hg : g ≠ .decoded) (x : Bytes32) : g.read (s.writeDecoded x) = g.read s := by
  cases g with
  | decoded => exact absurd rfl hg
  | _ => rfl

@[simp] theorem read_writePoly (hg : g ≠ .p) (d : PReg) (f : Poly) : g.read (s.writePoly d f) = g.read s := by
  cases g with
  | p => exact absurd rfl hg
  | _ => rfl

@[simp] theorem read_setSequencer (hg : g ≠ .sequencer) (ph : Phase) (md : Mode) (r : Fin 11) :
    g.read (s.setSequencer ph md r) = g.read s := by
  cases g with
  | sequencer => exact absurd rfl hg
  | _ => rfl

@[simp] theorem read_consumeWords (hg : g ≠ .port) (n : Nat) : g.read (s.consumeWords n) = g.read s := by
  cases g with
  | port => exact absurd rfl hg
  | _ => rfl

@[simp] theorem read_writeSecret {sel : Side} (hg : g ≠ secretGroup sel) (x : Bytes32) :
    g.read (s.writeSecret sel x) = g.read s := by
  cases sel with
  | encapsulation =>
    cases g with
    | sse => exact absurd rfl hg
    | _ => rfl
  | decapsulation =>
    cases g with
    | ssd => exact absurd rfl hg
    | _ => rfl

@[simp] theorem read_samplePoly (hp : g ≠ .p) (hport : g ≠ .port) (d : PReg) (f : Word → Coeff) :
    g.read (s.samplePoly d f) = g.read s := by
  simp [State.samplePoly, hp, hport]

@[simp] theorem read_samplePolyUniform (hp : g ≠ .p) (hport : g ≠ .port) (d : PReg) :
    g.read (s.samplePolyUniform d) = g.read s := read_samplePoly hp hport d _

@[simp] theorem read_samplePolyNoise (hp : g ≠ .p) (hport : g ≠ .port) (d : PReg) :
    g.read (s.samplePolyNoise d) = g.read s := read_samplePoly hp hport d _

@[simp] theorem read_sampleMessage (hm : g ≠ .m) (hport : g ≠ .port) : g.read s.sampleMessage = g.read s := by
  simp [State.sampleMessage, hm, hport]

@[simp] theorem read_encodeInto (hp : g ≠ .p) (d : PReg) : g.read (s.encodeInto d) = g.read s := read_writePoly hp d _

@[simp] theorem read_decodeFrom (hg : g ≠ .decoded) (a : PReg) : g.read (s.decodeFrom a) = g.read s :=
  read_writeDecoded hg _

@[simp] theorem read_hashSecret {sel : Side} (hg : g ≠ secretGroup sel) (a b : PReg) :
    g.read (s.hashSecret sel a b) = g.read s := read_writeSecret hg _

theorem read_keygen (hp : g ≠ .p) (hport : g ≠ .port) : g.read s.keygen = g.read s := by
  simp [State.keygen, hp, hport]

theorem read_encaps (hp : g ≠ .p) (hport : g ≠ .port) (hm : g ≠ .m) (hsse : g ≠ .sse) :
    g.read s.encaps = g.read s :=
  (read_hashSecret (sel := .encapsulation) hsse 8 9).trans (by simp [hp, hport, hm])

theorem read_decaps (hp : g ≠ .p) (hdecoded : g ≠ .decoded) (hssd : g ≠ .ssd) : g.read s.decaps = g.read s :=
  (read_hashSecret (sel := .decapsulation) hssd 8 9).trans (by simp [hp, hdecoded])

/-- The frame of every command: a group its column does not name is unchanged. -/
theorem read_commandEffect {i : Instr} (hg : g ∉ writtenBy i) : g.read (commandEffect i s) = g.read s := by
  cases i <;> simp only [writtenBy, List.mem_cons, List.not_mem_nil, or_false, not_or] at hg
  case nop => rfl
  case clrerr => exact read_clearFerr hg
  case keyexp => exact read_writeSchedule hg.1 hg.2 _
  case enc | dec => exact (read_setSequencer hg.2 _ _ _).trans (read_writeSt hg.1 _)
  case gfmul | sbox | isbox => exact read_writeBres hg _
  case padd | psub | pmul | penc => exact read_writePoly hg _ _
  case psampu | psampn => exact read_samplePoly hg.1 hg.2 _ _
  case msamp => exact read_sampleMessage hg.1 hg.2
  case pdec => exact read_decodeFrom hg _
  case khash => exact read_hashSecret hg _ _
  case keygen => exact read_keygen hg.1 hg.2
  case encaps =>
    obtain ⟨hp, hport, hm, hsse⟩ := hg
    exact read_encaps hp hport hm hsse
  case decaps =>
    obtain ⟨hp, hdecoded, hssd⟩ := hg
    exact read_decaps hp hdecoded hssd
  case ss2key => exact read_writeKey hg.1 hg.2 _
  all_goals exact read_writeSt hg _

/-- A group that a command has changed stands in the command's column. -/
theorem mem_writtenBy_of_read_ne {i : Instr} (h : g.read (commandEffect i s) ≠ g.read s) : g ∈ writtenBy i :=
  not_not.mp (mt read_commandEffect h)

end

/-- CMD, the host's queue and the replies stand in no command's column. -/
theorem host_not_mem_writtenBy (i : Instr) : .host ∉ writtenBy i := by
  cases i <;> simp [writtenBy]

/-- An error event moves FERR only where it finds it 0, and then to its own code (60_exceptions.md R242). -/
theorem firstError_ne {f c : ResultCode} (h : firstError f c ≠ f) : f = .ok ∧ firstError f c = c := by
  unfold firstError at *
  split at h
  · exact ⟨‹_›, if_pos ‹_›⟩
  · exact (h rfl).elim

/-- Err(code) is called with a code that is not 0 (60_exceptions.md R241, R242). -/
theorem commandError_ne_ok {i : Instr} {s : State} {c : ResultCode} (h : commandError i s = some c) : c ≠ .ok := by
  rintro rfl
  cases i with
  | ark | enc | dec =>
    simp only [commandError] at h
    split_ifs at h <;> cases h
  | _ => nomatch h

/-- What KEYEXP and SS2KEY, the writers of KV, make of it. -/
theorem commandEffect_kv {i : Instr} {s : State} (h : (commandEffect i s).kv ≠ s.kv) :
    i = .keyexp ∧ (commandEffect i s).kv = true ∨ (∃ sel, i = .ss2key sel) ∧ (commandEffect i s).kv = false := by
  have hmem : .kv ∈ writtenBy i := mem_writtenBy_of_read_ne h
  cases i with
  | keyexp => exact .inl ⟨rfl, rfl⟩
  | ss2key sel => exact .inr ⟨⟨sel, rfl⟩, rfl⟩
  | _ => simp [writtenBy] at hmem

theorem commandEffect_ferr {i : Instr} {s : State} (h : (commandEffect i s).ferr ≠ s.ferr) :
    i = .clrerr ∧ (commandEffect i s).ferr = .ok := by
  have hmem : .ferr ∈ writtenBy i := mem_writtenBy_of_read_ne h
  cases i with
  | clrerr => exact ⟨rfl, rfl⟩
  | _ => simp [writtenBy] at hmem

section
variable {i : Instr}

theorem st_mem_writtenBy (h : .st ∈ writtenBy i) :
    i ∈ [.subb, .isubb, .shrow, .ishrow, .mixc, .imixc, .enc, .dec] ∨ ∃ r, i = .ark r := by
  cases i <;> simp [writtenBy] at h ⊢

theorem key_mem_writtenBy (h : .key ∈ writtenBy i) : ∃ sel, i = .ss2key sel := by
  cases i <;> simp [writtenBy] at h ⊢

theorem rk_mem_writtenBy (h : .rk ∈ writtenBy i) : i = .keyexp := by
  cases i <;> simp [writtenBy] at h ⊢

theorem bres_mem_writtenBy (h : .bres ∈ writtenBy i) :
    (∃ a b, i = .gfmul a b) ∨ (∃ a, i = .sbox a) ∨ ∃ a, i = .isbox a := by
  cases i <;> simp [writtenBy] at h ⊢

theorem m_mem_writtenBy (h : .m ∈ writtenBy i) : i = .msamp ∨ i = .encaps := by
  cases i <;> simp [writtenBy] at h ⊢

theorem decoded_mem_writtenBy (h : .decoded ∈ writtenBy i) : (∃ a, i = .pdec a) ∨ i = .decaps := by
  cases i <;> simp [writtenBy] at h ⊢

theorem sse_mem_writtenBy (h : .sse ∈ writtenBy i) : (∃ a b, i = .khash .encapsulation a b) ∨ i = .encaps := by
  cases i <;> simp_all [writtenBy]

theorem ssd_mem_writtenBy (h : .ssd ∈ writtenBy i) : (∃ a b, i = .khash .decapsulation a b) ∨ i = .decaps := by
  cases i <;> simp_all [writtenBy]

theorem p_mem_writtenBy (h : .p ∈ writtenBy i) :
    i ∈ [.keygen, .encaps, .decaps] ∨ (∃ d a b, i = .padd d a b ∨ i = .psub d a b ∨ i = .pmul d a b) ∨
      ∃ d, i = .psampu d ∨ i = .psampn d ∨ i = .penc d := by
  cases i <;> simp [writtenBy] at h ⊢

theorem sequencer_mem_writtenBy (h : .sequencer ∈ writtenBy i) : i = .enc ∨ i = .dec := by
  cases i <;> simp [writtenBy] at h ⊢

end

end Sys2Proof.Machine

namespace Sys2Proof.Proofs

open Machine

/-- Settles O56: a command that raises an error leaves the record of it and nothing else; any other changes only what
its column names. -/
theorem registersWrittenByTheirCommands : Obligations.RegistersWrittenByTheirCommands := by
  intro i s t ht
  rw [exec_eq] at ht
  cases ht
  unfold commandResult
  cases he : commandError i s with
  | some c =>
    have hc : c ≠ .ok := commandError_ne_ok he
    simpa [hc] using fun h => .inr (firstError_ne h)
  | none =>
    have column {g : RegGroup} (h : g.read (commandEffect i s) ≠ g.read s) : g ∈ writtenBy i :=
      mem_writtenBy_of_read_ne h
    have hhost : RegGroup.host.read (commandEffect i s) = RegGroup.host.read s :=
      read_commandEffect (host_not_mem_writtenBy i)
    exact ⟨fun h => st_mem_writtenBy (column h), fun h => key_mem_writtenBy (column h),
      fun h => rk_mem_writtenBy (column h), commandEffect_kv, fun h => bres_mem_writtenBy (column h),
      fun h => m_mem_writtenBy (column h),
      fun h => decoded_mem_writtenBy (column fun e => by simp_all [RegGroup.read]),
      fun h => sse_mem_writtenBy (column h), fun h => ssd_mem_writtenBy (column h),
      fun h => p_mem_writtenBy (column h),
      fun h => sequencer_mem_writtenBy (column fun e => by simp_all [RegGroup.read]),
      fun h => .inl (commandEffect_ferr h), iff_of_true rfl rfl, by simpa [RegGroup.read] using hhost⟩

end Sys2Proof.Proofs
end

section
/-! The flags, the sequencer and the host's side are no inputs of a command (10_state.md R30, R36): erasing them before
a command changes none of the data registers it leaves. -/

namespace Sys2Proof.Machine

/-- The state with BRES, DMM, CMD, DONE, RES, FERR, the sequencer, the host's queue and the replies erased: what is left
are the data registers, KV and the random port. -/
def State.eraseFlags (s : State) : State :=
  { s with bres := 0, dmm := false, cmd := 0, done := false, res := .ok, ferr := .ok, phase := .idle,
           mode := .encrypt, rnd := 0, inbox := [], replies := [] }

/-- The register writes of a command read none of what is erased. -/
theorem eraseFlags_commandEffect (i : Instr) (s : State) :
    (commandEffect i s.eraseFlags).eraseFlags = (commandEffect i s).eraseFlags := by
  cases i with
  | khash sel => cases sel <;> rfl
  | ss2key sel => cases sel <;> rfl
  | _ => rfl

/-- Neither does the choice of its error. -/
theorem commandError_eraseFlags (i : Instr) (s : State) : commandError i s.eraseFlags = commandError i s := rfl

/-- Two states that agree where nothing is erased hold the same data registers. -/
theorem eq_of_eraseFlags_eq {s t : State} (h : s.eraseFlags = t.eraseFlags) :
    s.st = t.st ∧ s.key = t.key ∧ s.rk = t.rk ∧ s.kv = t.kv ∧ s.m = t.m ∧ s.mp = t.mp ∧ s.sse = t.sse ∧
      s.ssd = t.ssd ∧ s.p = t.p ∧ s.rndDrawn = t.rndDrawn ∧ s.rndSupplied = t.rndSupplied := by
  simpa [State.eraseFlags] using h

end Sys2Proof.Machine

namespace Sys2Proof.Proofs

open Machine

/-- Settles O59: neither the choice of an error nor the register writes of a command see what is erased. -/
theorem flagsAreNoInputs : Obligations.FlagsAreNoInputs := by
  intro i s t u v ht hu hv
  rw [exec_eq] at hu hv
  cases hu
  cases hv
  have hst : s.eraseFlags = t.eraseFlags := (congrArg State.eraseFlags ht).symm
  have herror : commandError i s = commandError i t := by
    rw [← commandError_eraseFlags, hst, commandError_eraseFlags]
  have heffect : (commandEffect i s).eraseFlags = (commandEffect i t).eraseFlags := by
    rw [← eraseFlags_commandEffect, hst, eraseFlags_commandEffect]
  unfold commandResult
  rw [herror]
  cases commandError i t with
  | some c => simpa using eq_of_eraseFlags_eq hst
  | none => simpa using eq_of_eraseFlags_eq heffect

end Sys2Proof.Proofs
end

section
/-! The host port, transaction by transaction: a running sequencer holds every access (20_memory.md R63), an idle engine
performs the oldest one (R64). -/

namespace Sys2Proof.Proofs

open Machine Laws Claims

section
variable {s : State}

/-- While the sequencer runs, a step is an engine step unless a reset is presented (20_memory.md R63). -/
theorem step_of_running (hrun : s.phase ≠ .idle) (hreset : ¬ ResetPresented s) : step s = sequencerStep s := by
  rw [step]
  obtain ⟨rest, hin, -⟩ | ⟨-, e⟩ | ⟨hidle, -⟩ | ⟨-, -, hidle, -⟩ | ⟨-, -, -, hidle, -⟩ := advance_cases s
  · exact absurd ⟨rest, hin⟩ hreset
  · exact e
  all_goals exact absurd hidle hrun

theorem step_of_read {off : Nat} {rest : List HostEvent} (hidle : s.phase = .idle)
    (hin : s.inbox = .read off :: rest) : step s = .next (hostRead off (s.setInbox rest)) := by
  simp only [step, advance, hin, hidle, if_true]

theorem step_of_write {off : Nat} {v : Word} {rest : List HostEvent} (hidle : s.phase = .idle)
    (hin : s.inbox = .write off v :: rest) : step s = hostWrite off v (s.setInbox rest) := by
  simp only [step, advance, hin, hidle, if_true]

/-- An engine step leaves the host's queue and the replies. -/
theorem engineStep_keeps_host {t : State} (h : engineStep s = some t) :
    t.inbox = s.inbox ∧ t.replies = s.replies := by
  obtain ⟨-, -, -, ⟨b, ph, r, -, rfl⟩ | ⟨b, -, rfl⟩⟩ := engineStep_cases h <;> exact ⟨rfl, rfl⟩

end

/-- Settles O7: a legal running sequencer has its engine step, which leaves the host's side alone. -/
theorem accessHeldWhileRunning : Obligations.AccessHeldWhileRunning := by
  intro s hlegal hrun hreset
  obtain ⟨t, ht⟩ := engineStep_isSome hlegal hrun
  have hstep : step s = .next t := by rw [step_of_running hrun hreset, sequencerStep, ht]
  obtain ⟨-, -, hlegal', -⟩ := engineStep_cases ht
  exact ⟨t, hstep, hlegal', engineStep_keeps_host ht⟩

end Sys2Proof.Proofs
end

section
/-! Where an offset of the window leads (20_memory.md R52, R57, R58): the words of a mapped range, the offsets at which
no range answers, and the ranges the host may not write. -/

namespace Sys2Proof.Proofs

open Machine Laws Claims

section
variable {r : Region} {w : Nat}

/-- Word w of a mapped range leads to that range. -/
theorem locate_word (hr : r ∈ registerMap) (hw : w < r.words) : locate (r.first + 4 * w) = some r := by
  have aligned : ∀ q ∈ registerMap, q.first % 4 = 0 := by decide
  have := aligned r hr
  exact locate_of_mem hr (by omega) (by omega) (by omega)

theorem windowWord_word (s : State) (hr : r ∈ registerMap) (hw : w < r.words) :
    windowWord s (r.first + 4 * w) = some (readReg s r.reg (4 * w)) := by
  rw [windowWord, locate_word hr hw, Option.map_some, Nat.add_sub_cancel_left]

theorem hostWrite_word (s : State) (v : Word) (hr : r ∈ registerMap) (hwr : r.writable = true) (hw : w < r.words) :
    hostWrite (r.first + 4 * w) v s = writeReg r.reg (4 * w) v s := by
  simp only [hostWrite, locate_word hr hw, hwr, if_true, Nat.add_sub_cancel_left]

end

section
variable {off : Nat}

/-- The mapped ranges and the gaps between them make up the window. -/
theorem locate_eq_none_iff : locate off = none ↔ BadOffset off := by
  refine ⟨fun h => ?_, locate_none⟩
  unfold locate at h
  split at h <;> rename_i ha
  · simp only [List.find?_eq_none, registerMap, List.forall_mem_cons, Region.holds, decide_eq_true_eq] at h
    unfold BadOffset
    omega
  · have houtside : ¬ (off % 4 = 0 ∧ off < 0x4000) := fun hin => ha (decide_eq_true hin)
    unfold BadOffset
    omega

theorem locate_of_not_badOffset (h : ¬ BadOffset off) : ∃ r, locate off = some r :=
  Option.ne_none_iff_exists'.mp (mt locate_eq_none_iff.mp h)

theorem windowWord_eq_none_iff (s : State) : windowWord s off = none ↔ BadOffset off := by
  rw [windowWord, Option.map_eq_none_iff, locate_eq_none_iff]

theorem windowWord_of_not_badOffset (s : State) (h : ¬ BadOffset off) : ∃ v, windowWord s off = some v :=
  Option.ne_none_iff_exists'.mp (mt (windowWord_eq_none_iff s).mp h)

/-- The read-only ranges of the map are the read-only offsets (20_memory.md R58). -/
theorem writable_eq_false_iff {r : Region} (h : locate off = some r) : r.writable = false ↔ ReadOnlyOffset off := by
  have readOnly : ∀ q ∈ registerMap, q.writable = false → (0x04 ≤ q.first ∧ q.first + 4 * q.words ≤ 0x18) ∨
      (0x40 ≤ q.first ∧ q.first + 4 * q.words ≤ 0xF0) ∨ (0x120 ≤ q.first ∧ q.first + 4 * q.words ≤ 0x1C0) := by
    decide
  have writable : ∀ q ∈ registerMap, q.writable = true → q.first + 4 * q.words ≤ 0x04 ∨
      (0x18 ≤ q.first ∧ q.first + 4 * q.words ≤ 0x40) ∨ (0xF0 ≤ q.first ∧ q.first + 4 * q.words ≤ 0x120) ∨
      0x1C0 ≤ q.first := by
    decide
  obtain ⟨hr, -, -, hge, hlt⟩ := locate_some h
  unfold ReadOnlyOffset
  cases hw : r.writable
  · have := readOnly r hr hw
    simp only [true_iff]
    omega
  · have := writable r hr hw
    simp only [Bool.true_eq_false, false_iff]
    omega

end

/-- The host's queue is in no word of the window. -/
theorem windowWord_setInbox (s : State) (rest : List HostEvent) (off : Nat) :
    windowWord (s.setInbox rest) off = windowWord s off := by
  have hread (reg : WindowReg) (rel : Nat) : readReg (s.setInbox rest) reg rel = readReg s reg rel := by
    cases reg <;> rfl
  simp only [windowWord, hread]

end Sys2Proof.Proofs
end

section
/-! Reads of mapped words and bad accesses (20_memory.md R57, R58, R61, R69). -/

namespace Sys2Proof.Proofs

open Machine Laws Claims

theorem hostRead_of_windowWord {s : State} {off : Nat} {v : Word} (h : windowWord s off = some v) :
    hostRead off s = s.reply v := by
  simp only [hostRead, h]

theorem hostRead_of_badOffset {off : Nat} (s : State) (h : BadOffset off) :
    hostRead off s = (s.accessErr .badAccess).reply 0#32 := by
  simp only [hostRead, (windowWord_eq_none_iff s).mpr h]

theorem hostWrite_of_bad_or_readOnly {off : Nat} (v : Word) (s : State) (h : BadOffset off ∨ ReadOnlyOffset off) :
    hostWrite off v s = .next (s.accessErr .badAccess) := by
  unfold hostWrite
  cases hl : locate off with
  | none => rfl
  | some r =>
    have hmapped : ¬ BadOffset off := by simp [← locate_eq_none_iff, hl]
    simp [(writable_eq_false_iff hl).mpr (h.resolve_left hmapped)]

/-- A read of a mapped word replies with it, and takes itself off the queue. -/
theorem step_of_mapped_read {s : State} {off : Nat} {rest : List HostEvent} {v : Word} (hidle : s.phase = .idle)
    (hin : s.inbox = .read off :: rest) (hv : windowWord s off = some v) :
    step s = .next ((s.setInbox rest).reply v) := by
  rw [step_of_read hidle hin, hostRead_of_windowWord ((windowWord_setInbox s rest off).trans hv)]

/-- Settles O16: a mapped offset has a word, and the read replies with it. -/
theorem mappedReadHasNoSideEffect : Obligations.MappedReadHasNoSideEffect := by
  intro s rest off hidle hin hmapped
  obtain ⟨v, hv⟩ := windowWord_of_not_badOffset s hmapped
  exact ⟨v, hv, step_of_mapped_read hidle hin hv⟩

/-- Settles O17: where no range answers a read gives 0, and no write there or to a read-only range is performed. -/
theorem badAccessRecordsOnly : Obligations.BadAccessRecordsOnly := by
  refine ⟨fun s rest off hidle hin hbad => ?_, fun s rest off v hidle hin hbad => ?_,
    fun s off => windowWord_of_not_badOffset s⟩
  · rw [step_of_read hidle hin, hostRead_of_badOffset _ hbad]
    rfl
  · rw [step_of_write hidle hin, hostWrite_of_bad_or_readOnly v _ hbad]
    rfl

end Sys2Proof.Proofs
end

section
/-! How data registers are packed into the words of the window: four bytes (20_memory.md R53) or two coefficients
(R55). -/

namespace Sys2Proof.Proofs

open Machine Laws Claims

/-- A word read from a list of bytes holds the four bytes from its index on. -/
theorem holdsBytes_of_loadWord {s : State} {off : Nat} {bytes : List Byte} {k : Nat}
    (h : windowWord s off = some (loadWord bytes k)) :
    HoldsBytes s off (bytes.getD k 0) (bytes.getD (k + 1) 0) (bytes.getD (k + 2) 0) (bytes.getD (k + 3) 0) :=
  ⟨_, h, wordOfBytes_bytes _ _ _ _⟩

theorem toList_getD {n : Nat} (x : Vector Byte n) {k : Nat} (h : k < n) : x.toList.getD k 0 = x[k] := by
  simp [h]

/-- A word read from a byte-array register holds the register's bytes from its index on. -/
theorem holdsBytes_of_register {s : State} {off n k : Nat} (x : Vector Byte n) (hk : k + 3 < n)
    (h : windowWord s off = some (loadWord x.toList k)) : HoldsBytes s off x[k] x[k + 1] x[k + 2] x[k + 3] := by
  simp only [← toList_getD]
  exact holdsBytes_of_loadWord h

/-- Byte k of block i in blocks laid one behind another. -/
theorem flatMap_toList_getD (blocks : List Block) {i k : Nat} (hi : i < blocks.length) (hk : k < 16) :
    (blocks.flatMap fun b => b.toList).getD (16 * i + k) 0 = blocks[i][k] := by
  induction blocks generalizing i with
  | nil => simp at hi
  | cons b bs ih =>
    rw [List.flatMap_cons]
    cases i with
    | zero => rw [List.getD_append _ _ _ _ (by simp; omega)]; simp [hk]
    | succ i =>
      rw [List.getD_append_right _ _ _ _ (by simp; omega)]
      have e : 16 * (i + 1) + k - b.toList.length = 16 * i + k := by simp; omega
      rw [e]
      exact ih (by simpa using hi)

/-- Byte k of RK[i] stands at 16·i + k of the schedule (20_memory.md R52). -/
theorem scheduleBytes_getD (sched : Schedule) (i : Fin 11) {k : Nat} (hk : k < 16) :
    (scheduleBytes sched).getD (16 * i.val + k) 0 = sched[i][k] := by
  rw [scheduleBytes, flatMap_toList_getD _ (by simp) hk]
  simp

section
variable (s : State)

theorem windowWord_st (w : Fin 4) : windowWord s (0x20 + 4 * w.val) = some (loadWord s.st.toList (4 * w.val)) :=
  windowWord_word s (r := ⟨0x20, 4, .st, true⟩) (by decide) w.isLt

theorem windowWord_key (w : Fin 4) : windowWord s (0x30 + 4 * w.val) = some (loadWord s.key.toList (4 * w.val)) :=
  windowWord_word s (r := ⟨0x30, 4, .key, true⟩) (by decide) w.isLt

theorem windowWord_rk (i : Fin 11) (w : Fin 4) : windowWord s (0x40 + 16 * i.val + 4 * w.val) =
    some (loadWord (scheduleBytes s.rk) (16 * i.val + 4 * w.val)) := by
  have h := windowWord_word s (r := ⟨0x40, 44, .rk, false⟩) (w := 4 * i.val + w.val) (by decide) (by simp; omega)
  rwa [show 4 * (4 * i.val + w.val) = 16 * i.val + 4 * w.val by omega, ← Nat.add_assoc] at h

theorem windowWord_m (w : Fin 8) : windowWord s (0x100 + 4 * w.val) = some (loadWord s.m.toList (4 * w.val)) :=
  windowWord_word s (r := ⟨0x100, 8, .m, true⟩) (by decide) w.isLt

theorem windowWord_mp (w : Fin 8) : windowWord s (0x120 + 4 * w.val) = some (loadWord s.mp.toList (4 * w.val)) :=
  windowWord_word s (r := ⟨0x120, 8, .mp, false⟩) (by decide) w.isLt

theorem windowWord_sse (w : Fin 8) : windowWord s (0x140 + 4 * w.val) = some (loadWord s.sse.toList (4 * w.val)) :=
  windowWord_word s (r := ⟨0x140, 8, .sse, false⟩) (by decide) w.isLt

theorem windowWord_ssd (w : Fin 8) : windowWord s (0x160 + 4 * w.val) = some (loadWord s.ssd.toList (4 * w.val)) :=
  windowWord_word s (r := ⟨0x160, 8, .ssd, false⟩) (by decide) w.isLt

end

/-- The place of word w of polynomial register i in the P range (20_memory.md R69). -/
theorem polyIndex_polyWord (i : PReg) (w : Fin 128) :
    polyIndex (4 * (128 * i.val + w.val)) = i ∧ polyWord (4 * (128 * i.val + w.val)) = w.val :=
  ⟨Fin.ext (by simp only [polyIndex, Fin.ofNat]; omega), by simp only [polyWord]; omega⟩

/-- The offset of word w of polynomial register i, as a word of the P range. -/
theorem polyOffset_eq (i : PReg) (w : Fin 128) :
    0x2000 + 0x200 * i.val + 4 * w.val = 0x2000 + 4 * (128 * i.val + w.val) := by omega

theorem windowWord_poly (s : State) (i : PReg) (w : Fin 128) :
    windowWord s (0x2000 + 0x200 * i.val + 4 * w.val) = some (loadCoeffs s.p[i] w.val) := by
  have h := windowWord_word s (r := ⟨0x2000, 2048, .poly, true⟩) (w := 128 * i.val + w.val) (by decide)
    (by simp; omega)
  obtain ⟨hi, hw⟩ := polyIndex_polyWord i w
  simpa only [polyOffset_eq, readReg, hi, hw] using h

/-- The fields of a polynomial word (20_memory.md R55). -/
theorem loadCoeffs_fields (f : Poly) (w : Fin 128) :
    (loadCoeffs f w.val).extractLsb' 0 12 = f[2 * w.val] ∧ (loadCoeffs f w.val).extractLsb' 12 4 = 0#4 ∧
      (loadCoeffs f w.val).extractLsb' 16 12 = f[2 * w.val + 1] ∧ (loadCoeffs f w.val).extractLsb' 28 4 = 0#4 := by
  have h := loadCoeffs_toNat f w.val
  rw [coeffAt_lt f (by omega), coeffAt_lt f (by omega)] at h
  have := f[2 * w.val].isLt
  have := f[2 * w.val + 1].isLt
  refine ⟨extractLsb'_eq_of_toNat ?_, extractLsb'_eq_of_toNat ?_, extractLsb'_eq_of_toNat ?_,
    extractLsb'_eq_of_toNat ?_⟩
  case refine_2 | refine_4 => change _ = 0; omega
  all_goals omega

/-- Settles O12: each register's word at 4w, byte by byte. -/
theorem byteArraysLittleEndian : Obligations.ByteArraysLittleEndian := by
  refine fun s => ⟨fun w => holdsBytes_of_register _ _ (windowWord_st s w),
    fun w => holdsBytes_of_register _ _ (windowWord_key s w), fun i w => ?_,
    fun w => holdsBytes_of_register _ _ (windowWord_m s w), fun w => holdsBytes_of_register _ _ (windowWord_mp s w),
    fun w => holdsBytes_of_register _ _ (windowWord_sse s w),
    fun w => holdsBytes_of_register _ _ (windowWord_ssd s w)⟩
  simp only [← scheduleBytes_getD]
  exact holdsBytes_of_loadWord (windowWord_rk s i w)

/-- Settles O13. -/
theorem polynomialWordLayout : Obligations.PolynomialWordLayout := fun s i w =>
  ⟨_, windowWord_poly s i w, loadCoeffs_fields s.p[i] w⟩

end Sys2Proof.Proofs
end

section
/-! Writes of the data registers (20_memory.md R59, R60, R61, R69), and what a read then returns (R64). -/

namespace Sys2Proof.Proofs

open Machine Laws Claims

/-- Storing a word at byte 4w replaces the bytes of word w. -/
theorem storeWord_eq_withWord {n : Nat} (x : Vector Byte n) (w : Nat) (v : Word) :
    storeWord x (4 * w) v = withWord x w v := by
  refine Vector.ext fun k hk => ?_
  rw [storeWord_getElem, withWord, Vector.getElem_ofFn, wordByte_eq]
  by_cases hkw : k / 4 = w
  · rw [if_pos (by omega), if_pos hkw, show k - 4 * w = k % 4 by omega]
  · rw [if_neg (by omega), if_neg hkw]
    rfl

/-- Settles O18: the three writable byte-array ranges, each with its register's write. -/
theorem dataWriteStoresItsBytes : Obligations.DataWriteStoresItsBytes := by
  refine ⟨fun s rest w v hidle hin => ?_, fun s rest w v hidle hin => ?_, fun s rest w v hidle hin => ?_⟩ <;>
    rw [step_of_write hidle hin, ← storeWord_eq_withWord]
  · exact hostWrite_word _ v (r := ⟨0x20, 4, .st, true⟩) (by decide) rfl w.isLt
  · exact hostWrite_word _ v (r := ⟨0x30, 4, .key, true⟩) (by decide) rfl w.isLt
  · exact hostWrite_word _ v (r := ⟨0x100, 8, .m, true⟩) (by decide) rfl w.isLt

section
variable (v : Word)

theorem lowHalf_eq : lowHalf v = (v.extractLsb' 0 16).toNat := by
  simp [lowHalf]

theorem highHalf_eq : highHalf v = (v.extractLsb' 16 16).toNat := by
  have := v.isLt
  rw [BitVec.extractLsb'_toNat, Nat.shiftRight_eq_div_pow, highHalf]
  omega

/-- The coefficient stored from the low half. -/
theorem ofNat_lowHalf : BitVec.ofNat 12 (lowHalf v) = v.extractLsb' 0 12 :=
  (extractLsb'_eq_of_toNat (by rw [BitVec.toNat_ofNat, lowHalf]; omega)).symm

/-- The coefficient stored from the high half. -/
theorem ofNat_highHalf : BitVec.ofNat 12 (highHalf v) = v.extractLsb' 16 12 :=
  (extractLsb'_eq_of_toNat (by rw [BitVec.toNat_ofNat, highHalf])).symm

end

theorem hostWrite_poly (s : State) (i : PReg) (w : Fin 128) (v : Word) :
    hostWrite (0x2000 + 0x200 * i.val + 4 * w.val) v s = .next (writePolyWord (4 * (128 * i.val + w.val)) v s) := by
  rw [polyOffset_eq]
  exact hostWrite_word s v (r := ⟨0x2000, 2048, .poly, true⟩) (by decide) rfl (by simp; omega)

/-- Settles O19: the two cases of a polynomial word's write. -/
theorem polynomialWordWrite : Obligations.PolynomialWordWrite := by
  intro s rest i w v hidle hin
  rw [step_of_write hidle hin, hostWrite_poly, ← lowHalf_eq, ← highHalf_eq]
  obtain ⟨hi, hw⟩ := polyIndex_polyWord i w
  obtain ⟨hlow, hhigh, e⟩ | ⟨hnot, e⟩ := writePolyWord_cases (4 * (128 * i.val + w.val)) v (s.setInbox rest)
  · simp only [hi, hw] at e
    rw [e]
    refine ⟨fun _ _ => ⟨_, rfl, rfl, fun e he => State.writePoly_other _ _ _ _ he.symm, fun j => ?_⟩,
      fun h => by omega⟩
    rw [State.writePoly_same, Fin.getElem_fin, storeCoeffs_getElem _ _ _ _ j.isLt, ofNat_lowHalf, ofNat_highHalf]
    rfl
  · rw [e]
    exact ⟨fun hlow hhigh => absurd ⟨hlow, hhigh⟩ hnot, fun _ => rfl⟩

/-- The ranges the host may write (20_memory.md R52). -/
theorem writable_cases {r : Region} (hr : r ∈ registerMap) (hw : r.writable = true) :
    r = ⟨0x0000, 1, .cmd, true⟩ ∨ r = ⟨0x0020, 4, .st, true⟩ ∨ r = ⟨0x0030, 4, .key, true⟩ ∨
      r = ⟨0x0100, 8, .m, true⟩ ∨ r = ⟨0x2000, 2048, .poly, true⟩ := by
  revert r
  decide

/-- A write to ST, KEY, M or a polynomial word stands in the window afterwards; PHASE, the queue and the replies stay
as they were. -/
theorem hostWrite_data {off : Nat} {v : Word} (s : State) (hmapped : ¬ BadOffset off)
    (hwritable : ¬ ReadOnlyOffset off) (hcmd : off ≠ 0)
    (hpoly : 0x2000 ≤ off → lowHalf v < 3329 ∧ highHalf v < 3329) :
    ∃ t, hostWrite off v s = .next t ∧ windowWord t off = some v ∧ t.phase = s.phase ∧ t.inbox = s.inbox ∧
      t.replies = s.replies := by
  obtain ⟨r, hl⟩ := locate_of_not_badOffset hmapped
  obtain ⟨hr, haligned, -, hge, hlt⟩ := locate_some hl
  have hw : r.writable = true := by simpa using mt (writable_eq_false_iff hl).mp hwritable
  simp only [hostWrite, windowWord, hl, hw, if_true, Option.map_some, Option.some.injEq]
  obtain rfl | rfl | rfl | rfl | rfl := writable_cases hr hw <;> dsimp only at hge hlt ⊢
  · omega
  · exact ⟨_, rfl, loadWord_storeWord s.st _ v (by omega), s.writeSt_phase _, s.writeSt_inbox _,
      s.writeSt_replies _⟩
  · exact ⟨_, rfl, loadWord_storeWord s.key _ v (by omega), s.writeKey_phase _, s.writeKey_inbox _,
      s.writeKey_replies _⟩
  · exact ⟨_, rfl, loadWord_storeWord s.m _ v (by omega), s.writeMessage_phase _, s.writeMessage_inbox _,
      s.writeMessage_replies _⟩
  · obtain ⟨hlow, hhigh⟩ := hpoly hge
    have hword : polyWord (off - 0x2000) < 128 := by rw [polyWord]; omega
    rw [writeReg, writePolyWord, if_pos ⟨hlow, hhigh⟩]
    refine ⟨_, rfl, ?_, s.writePoly_phase _ _, s.writePoly_inbox _ _, s.writePoly_replies _ _⟩
    rw [readReg, State.writePoly_same]
    exact loadCoeffs_storeCoeffs _ _ v hword hlow hhigh

/-- Settles O20: the write's step leaves the word in the window, and the read's step replies with it. -/
theorem readAfterWrite : Obligations.ReadAfterWrite := by
  intro s t rest off v hidle hin hmapped hwritable hcmd hpoly hrun
  obtain ⟨u, hu, hword, hphase, hinbox, hreplies⟩ :=
    hostWrite_data (v := v) (s.setInbox (.read off :: rest)) hmapped hwritable hcmd hpoly
  have hwrite : core.step s = .next u := (step_of_write hidle hin).trans hu
  have hread : core.step u = .next ((u.setInbox rest).reply v) :=
    step_of_mapped_read (hphase.trans hidle) hinbox hword
  simp only [Host.Core.run, hwrite, hread] at hrun
  cases hrun
  exact ⟨congrArg (· ++ [v]) hreplies, rfl⟩

end Sys2Proof.Proofs
end

section
/-! Commands and their words (30_encoding.md R80 to R83): the fields of a word, the one row a word can match, and the
formats by which that row's command is written back. -/

namespace Sys2Proof.Proofs

open Laws Claims

/-! ## The fields of a word -/

section
variable (w : Word)

theorem fieldImmA_toNat : (fieldImmA w).toNat = field w 8 8 := by
  rw [fieldImmA, BitVec.toNat_ofNat]; exact Nat.mod_mod _ _

theorem fieldImmB_toNat : (fieldImmB w).toNat = field w 16 8 := by
  rw [fieldImmB, BitVec.toNat_ofNat]; exact Nat.mod_mod _ _

theorem fieldRidx_toNat : (fieldRidx w).toNat = field w 8 4 := by
  rw [fieldRidx, BitVec.toNat_ofNat]; exact Nat.mod_mod _ _

theorem fieldRd_val : (fieldRd w).val = field w 8 4 := Nat.mod_mod _ _

theorem fieldRa_val : (fieldRa w).val = field w 12 4 := Nat.mod_mod _ _

theorem fieldRb_val : (fieldRb w).val = field w 16 4 := Nat.mod_mod _ _

theorem fieldSel_bit : (fieldSel w).bit = field w 8 1 := by
  have hbit : field w 8 1 = 0 ∨ field w 8 1 = 1 := Nat.mod_two_eq_zero_or_one _
  obtain h | h := hbit <;> simp [fieldSel, Side.bit, h]

theorem fieldRidx_eq_extractLsb' : fieldRidx w = w.extractLsb' 8 4 :=
  (extractLsb'_eq_of_toNat (fieldRidx_toNat w).symm).symm

theorem opc_eq_toNat_and : opc w = (w &&& 0xFF#32).toNat := by
  rw [BitVec.toNat_and]; exact (Nat.and_two_pow_sub_one_eq_mod w.toNat 8).symm

end

/-! ## The row of a word -/

section
variable {w : Word} {row : OpcodeRow}

theorem rowMatches_iff : rowMatches w row = true ↔ w &&& row.mask = row.pattern := beq_iff_eq

/-- A row's pattern is an opcode and nothing above it. -/
theorem pattern_and_opcode (hr : row ∈ opcodeMap) : row.pattern &&& 0xFF#32 = row.pattern := by
  revert row; decide

/-- The 28 opcodes differ: two rows with the same pattern are one row. -/
theorem row_eq_of_pattern_eq {q : OpcodeRow} (hr : row ∈ opcodeMap) (hq : q ∈ opcodeMap)
    (h : row.pattern = q.pattern) : row = q := by
  have distinct : (opcodeMap.map OpcodeRow.pattern).Nodup := by decide
  exact List.inj_on_of_nodup_map distinct hr hq h

/-- A row's opcode is a word's opcode when the pattern stands in bits 7:0. -/
theorem pattern_toNat_eq_opc_iff : row.pattern.toNat = opc w ↔ row.pattern = w &&& 0xFF#32 := by
  rw [opc_eq_toNat_and, BitVec.toNat_inj]

/-- Every mask holds the opcode, so a word that matches a row has the row's opcode. -/
theorem pattern_eq_of_rowMatches (hr : row ∈ opcodeMap) (hm : rowMatches w row = true) :
    row.pattern = w &&& 0xFF#32 := by
  have opcodeInMask : ∀ q ∈ opcodeMap, q.mask &&& 0xFF#32 = 0xFF#32 := by decide
  rw [← pattern_and_opcode hr, ← rowMatches_iff.mp hm, BitVec.and_assoc, opcodeInMask row hr]

/-- At most one row matches a word, so the search of R84 finds it. -/
theorem find?_of_rowMatches (hr : row ∈ opcodeMap) (hm : rowMatches w row = true) :
    opcodeMap.find? (rowMatches w) = some row := by
  cases hf : opcodeMap.find? (rowMatches w) with
  | none => exact absurd hm (List.find?_eq_none.mp hf row hr)
  | some q =>
    have hq := List.mem_of_find?_eq_some hf
    have hpattern := pattern_eq_of_rowMatches hq (List.find?_some hf)
    rw [row_eq_of_pattern_eq hr hq ((pattern_eq_of_rowMatches hr hm).trans hpattern.symm)]

theorem decode_of_rowMatches (hr : row ∈ opcodeMap) (hm : rowMatches w row = true) :
    decode w = if (row.command w).wellFormed then .command (row.command w) else .illegal .roundIndexAboveTen := by
  simp only [decode, find?_of_rowMatches hr hm]

theorem decode_eq_command {i : Instr} (h : decode w = .command i) :
    ∃ row ∈ opcodeMap, rowMatches w row = true ∧ row.command w = i ∧ WellFormed i := by
  unfold decode at h
  split at h
  · cases h
  next row hf =>
    split at h
    next hwf =>
      cases h
      exact ⟨row, List.mem_of_find?_eq_some hf, List.find?_some hf, rfl, hwf⟩
    next => cases h

end

/-! ## Decode after encode -/

/-- The per-instruction laws together. -/
theorem encodesItsRow (i : Instr) : EncodesItsRow.Statement i := by
  cases i with
  | nop => exact EncodesItsRow.nop
  | clrerr => exact EncodesItsRow.clrerr
  | keyexp => exact EncodesItsRow.keyexp
  | ark ridx => exact EncodesItsRow.ark ridx
  | subb => exact EncodesItsRow.subb
  | isubb => exact EncodesItsRow.isubb
  | shrow => exact EncodesItsRow.shrow
  | ishrow => exact EncodesItsRow.ishrow
  | mixc => exact EncodesItsRow.mixc
  | imixc => exact EncodesItsRow.imixc
  | enc => exact EncodesItsRow.enc
  | dec => exact EncodesItsRow.dec
  | gfmul a b => exact EncodesItsRow.gfmul a b
  | sbox a => exact EncodesItsRow.sbox a
  | isbox a => exact EncodesItsRow.isbox a
  | padd rd ra rb => exact EncodesItsRow.padd rd ra rb
  | psub rd ra rb => exact EncodesItsRow.psub rd ra rb
  | pmul rd ra rb => exact EncodesItsRow.pmul rd ra rb
  | psampu rp => exact EncodesItsRow.psampu rp
  | psampn rp => exact EncodesItsRow.psampn rp
  | msamp => exact EncodesItsRow.msamp
  | penc rp => exact EncodesItsRow.penc rp
  | pdec rp => exact EncodesItsRow.pdec rp
  | khash sel ra rb => exact EncodesItsRow.khash sel ra rb
  | keygen => exact EncodesItsRow.keygen
  | encaps => exact EncodesItsRow.encaps
  | decaps => exact EncodesItsRow.decaps
  | ss2key sel => exact EncodesItsRow.ss2key sel

/-- Settles O1: the encoded word matches the instruction's row, and no other row. -/
theorem decodeOfEncode : Obligations.DecodeOfEncode := by
  intro i hwf
  obtain ⟨row, hr, hm, hcommand⟩ := encodesItsRow i
  rw [decode_of_rowMatches hr hm, hcommand, if_pos hwf]

/-! ## Encode after decode: a word is its masked bits and its operand fields -/

/-- The mask of the bits of an operand field. -/
def fieldMask (start len : Nat) : Word := BitVec.ofNat 32 ((2 ^ len - 1) * 2 ^ start)

section
variable {w c : Word}

theorem and_and_of_disjoint {m m' : Word} (hdisjoint : m &&& m' = 0#32) : (w &&& m) &&& (w &&& m') = 0#32 := by
  calc (w &&& m) &&& (w &&& m') = (w &&& w) &&& (m &&& m') := by ac_rfl
    _ = 0#32 := by rw [hdisjoint, BitVec.and_zero]

/-- The bits under two masks without a common bit add up. -/
theorem and_or_eq_add {m m' : Word} (hdisjoint : m &&& m' = 0#32) : w &&& (m ||| m') = (w &&& m) + (w &&& m') := by
  rw [BitVec.and_or_distrib_left, BitVec.add_eq_or_of_and_eq_zero _ _ (and_and_of_disjoint hdisjoint)]

theorem toNat_and_fieldMask {start len : Nat} (hfits : start + len ≤ 32) :
    (w &&& fieldMask start len).toNat = field w start len * 2 ^ start := by
  have hmask : (2 ^ len - 1) * 2 ^ start < 2 ^ 32 := by
    calc (2 ^ len - 1) * 2 ^ start < 2 ^ len * 2 ^ start := by gcongr; exact Nat.sub_one_lt (by positivity)
      _ = 2 ^ (start + len) := by rw [← pow_add, Nat.add_comm]
      _ ≤ 2 ^ 32 := Nat.pow_le_pow_right (by decide) hfits
  rw [BitVec.toNat_and, fieldMask, BitVec.toNat_ofNat, Nat.mod_eq_of_lt hmask]
  refine Nat.eq_of_testBit_eq fun i => ?_
  simp only [field, Nat.testBit_and, Nat.testBit_mul_two_pow, Nat.testBit_two_pow_sub_one, Nat.testBit_mod_two_pow,
    Nat.testBit_div_two_pow]
  by_cases hi : start ≤ i
  · simp [hi, Bool.and_comm]
  · simp [hi]

/-- Widening a mask by the bits of a field adds the field to the masked word. -/
theorem toNat_and_or_fieldMask {m : Word} {start len : Nat} (hfits : start + len ≤ 32)
    (hdisjoint : m &&& fieldMask start len = 0#32) :
    (w &&& (m ||| fieldMask start len)).toNat = (w &&& m).toNat + field w start len * 2 ^ start := by
  rw [and_or_eq_add hdisjoint, BitVec.toNat_add_of_and_eq_zero (and_and_of_disjoint hdisjoint),
    toNat_and_fieldMask hfits]

/-- Fields that make up a word, in their places, make up the word. -/
theorem packFields_of_toNat {opcode f8 f12 f16 : Nat}
    (h : w.toNat = opcode + f8 * 2 ^ 8 + f12 * 2 ^ 12 + f16 * 2 ^ 16) : packFields opcode f8 f12 f16 = w := by
  rw [packFields, ← h, BitVec.ofNat_toNat, BitVec.setWidth_eq]

theorem and_ones (w : Word) : w &&& 0xFFFFFFFF#32 = w := BitVec.and_allOnes

/-- A word is its bits outside a field and the field in its place. -/
theorem toNat_eq_and_add_field {m : Word} {start len : Nat} (hfits : start + len ≤ 32)
    (hdisjoint : m &&& fieldMask start len = 0#32) (hall : m ||| fieldMask start len = 0xFFFFFFFF#32) :
    w.toNat = (w &&& m).toNat + field w start len * 2 ^ start := by
  rw [← toNat_and_or_fieldMask hfits hdisjoint, hall, and_ones]

/-- A field of adjacent fields is the fields one above the other. -/
theorem field_add (start len len' : Nat) :
    field w start (len + len') = field w start len + field w (start + len) len' * 2 ^ len := by
  simp only [field, pow_add, Nat.mod_mul, Nat.div_div_eq_div_mul]
  ring

/-- A word with one operand field, at bit 8, is packed from its other bits and the field. -/
theorem packFields_of_one_field {m : Word} {len : Nat} (hfits : 8 + len ≤ 32)
    (hdisjoint : m &&& fieldMask 8 len = 0#32) (hall : m ||| fieldMask 8 len = 0xFFFFFFFF#32) (h : w &&& m = c) :
    packFields c.toNat (field w 8 len) 0 0 = w :=
  packFields_of_toNat (by rw [toNat_eq_and_add_field hfits hdisjoint hall, h]; omega)

/-- Format N: no operand. -/
theorem packFields_formatN (h : w &&& 0xFFFFFFFF#32 = c) : packFields c.toNat 0 0 0 = w :=
  packFields_of_toNat (by rw [← h, and_ones]; omega)

/-- Formats R and P1: RIDX or RP. -/
theorem packFields_formatR (h : w &&& 0xFFFFF0FF#32 = c) : packFields c.toNat (field w 8 4) 0 0 = w :=
  packFields_of_one_field (by decide) (by decide) (by decide) h

/-- Format S: SEL. -/
theorem packFields_formatS (h : w &&& 0xFFFFFEFF#32 = c) : packFields c.toNat (field w 8 1) 0 0 = w :=
  packFields_of_one_field (by decide) (by decide) (by decide) h

/-- Format B1: IMMA. -/
theorem packFields_formatB1 (h : w &&& 0xFFFF00FF#32 = c) : packFields c.toNat (field w 8 8) 0 0 = w :=
  packFields_of_one_field (by decide) (by decide) (by decide) h

/-- Format B: IMMA and IMMB above it. -/
theorem packFields_formatB (h : w &&& 0xFF0000FF#32 = c) :
    packFields c.toNat (field w 8 8) 0 (field w 16 8) = w := by
  have hw : w.toNat = (w &&& 0xFF0000FF#32).toNat + field w 8 16 * 2 ^ 8 :=
    toNat_eq_and_add_field (by decide) (by decide) (by decide)
  have hfields : field w 8 16 = field w 8 8 + field w 16 8 * 2 ^ 8 := field_add 8 8 8
  exact packFields_of_toNat (by rw [hw, h]; omega)

/-- Format P3: RD, RA and RB one above the other. -/
theorem packFields_formatP3 (h : w &&& 0xFFF000FF#32 = c) :
    packFields c.toNat (field w 8 4) (field w 12 4) (field w 16 4) = w := by
  have hw : w.toNat = (w &&& 0xFFF000FF#32).toNat + field w 8 12 * 2 ^ 8 :=
    toNat_eq_and_add_field (by decide) (by decide) (by decide)
  have hfields : field w 8 12 = field w 8 4 + field w 12 8 * 2 ^ 4 := field_add 8 4 8
  have hsources : field w 12 8 = field w 12 4 + field w 16 4 * 2 ^ 4 := field_add 12 4 4
  exact packFields_of_toNat (by rw [hw, h]; omega)

/-- Format H: SEL, and above three reserved bits RA and RB. -/
theorem packFields_formatH (h : w &&& 0xFFF00EFF#32 = c) :
    packFields c.toNat (field w 8 1) (field w 12 4) (field w 16 4) = w := by
  have hw : w.toNat = (w &&& 0xFFFFFEFF#32).toNat + field w 8 1 * 2 ^ 8 :=
    toNat_eq_and_add_field (by decide) (by decide) (by decide)
  have hrest : (w &&& 0xFFFFFEFF#32).toNat = (w &&& 0xFFF00EFF#32).toNat + field w 12 8 * 2 ^ 12 :=
    toNat_and_or_fieldMask (m := 0xFFF00EFF#32) (start := 12) (len := 8) (by decide) (by decide)
  have hsources : field w 12 8 = field w 12 4 + field w 16 4 * 2 ^ 4 := field_add 12 4 4
  exact packFields_of_toNat (by rw [hw, hrest, h]; omega)

end

/-- Every row's command, read from a word the row matches, has that word as its encoding: by the row's format, in the
order of the map (30_encoding.md R83). -/
theorem encode_command_of_rowMatches (w : Word) :
    ∀ row ∈ opcodeMap, rowMatches w row = true → encode (row.command w) = w := by
  simp only [opcodeMap, rowsSystem, rowsAes, rowsField, rowsRing, rowsKem, List.cons_append, List.nil_append,
    List.forall_mem_cons, List.not_mem_nil, false_implies, implies_true, and_true, rowMatches_iff, encode,
    fieldImmA_toNat, fieldImmB_toNat, fieldRidx_toNat, fieldRd_val, fieldRa_val, fieldRb_val, fieldSel_bit]
  exact ⟨
    packFields_formatN, packFields_formatN,
    packFields_formatN, packFields_formatR, packFields_formatN, packFields_formatN, packFields_formatN,
    packFields_formatN, packFields_formatN, packFields_formatN, packFields_formatN, packFields_formatN,
    packFields_formatB, packFields_formatB1, packFields_formatB1,
    packFields_formatP3, packFields_formatP3, packFields_formatP3, packFields_formatR, packFields_formatR,
    packFields_formatN, packFields_formatR, packFields_formatR, packFields_formatH,
    packFields_formatN, packFields_formatN, packFields_formatN, packFields_formatS⟩

/-- Settles O2: the command is its row's, and the row's format writes the word back. -/
theorem encodeOfDecode : Obligations.EncodeOfDecode := by
  intro w i h
  obtain ⟨row, hr, hm, hcommand, hwf⟩ := decode_eq_command h
  exact ⟨hwf, hcommand ▸ encode_command_of_rowMatches w row hr hm⟩

end Sys2Proof.Proofs
end

section
/-! The illegal words (30_encoding.md R84): the format table against the opcode map, and the three kinds told apart. -/

namespace Sys2Proof.Proofs

open Claims

/-- The opcode map and the format table list the same opcodes, and a row's mask is its opcode's bits and the bits its
format reserves (30_encoding.md R80, R83). -/
theorem opcodeMap_agrees_with_formatTable :
    (∀ row ∈ opcodeMap, ∃ f ∈ Claims.formatTable, row.pattern.toNat ∈ f.1 ∧ row.mask = f.2 ||| 0xFF#32) ∧
      ∀ f ∈ Claims.formatTable, ∀ c ∈ f.1, ∃ row ∈ opcodeMap, row.pattern.toNat = c ∧ row.mask = f.2 ||| 0xFF#32 := by
  decide

section
variable {w : Word} {row : OpcodeRow}

theorem listed_iff : Listed w ↔ ∃ row ∈ opcodeMap, row.pattern = w &&& 0xFF#32 := by
  constructor
  · rintro ⟨f, hf, hc⟩
    obtain ⟨row, hr, hpattern, -⟩ := opcodeMap_agrees_with_formatTable.2 f hf _ hc
    exact ⟨row, hr, pattern_toNat_eq_opc_iff.mp hpattern⟩
  · rintro ⟨row, hr, hpattern⟩
    obtain ⟨f, hf, hc, -⟩ := opcodeMap_agrees_with_formatTable.1 row hr
    exact ⟨f, hf, pattern_toNat_eq_opc_iff.mpr hpattern ▸ hc⟩

theorem listed_of_rowMatches (hr : row ∈ opcodeMap) (hm : rowMatches w row = true) : Listed w :=
  listed_iff.mpr ⟨row, hr, pattern_eq_of_rowMatches hr hm⟩

theorem opcodeListed_iff : opcodeListed w = true ↔ Listed w := by
  rw [listed_iff, opcodeListed, List.any_eq_true]
  refine exists_congr fun row => and_congr_right fun hr => ?_
  rw [pattern_and_opcode hr, beq_iff_eq]

/-- A word with a row's opcode matches the row exactly when it has no bit the row's format reserves. -/
theorem rowMatches_iff_reserved {f : List Nat × Word} (hf : f ∈ Claims.formatTable) (hmask : row.mask = f.2 ||| 0xFF#32)
    (hpattern : row.pattern = w &&& 0xFF#32) : rowMatches w row = true ↔ w &&& f.2 = 0#32 := by
  have reservedAboveOpcode : ∀ g ∈ Claims.formatTable, g.2 &&& 0xFF#32 = 0#32 := by decide
  rw [rowMatches_iff, hmask, hpattern, and_or_eq_add (reservedAboveOpcode f hf)]
  exact add_eq_right

theorem reservedBit_iff :
    ReservedBit w ↔ ∃ row ∈ opcodeMap, row.pattern = w &&& 0xFF#32 ∧ ¬ rowMatches w row = true := by
  constructor
  · rintro ⟨f, hf, hc, hbit⟩
    obtain ⟨row, hr, hopc, hmask⟩ := opcodeMap_agrees_with_formatTable.2 f hf _ hc
    have hpattern := pattern_toNat_eq_opc_iff.mp hopc
    exact ⟨row, hr, hpattern, mt (rowMatches_iff_reserved hf hmask hpattern).mp hbit⟩
  · rintro ⟨row, hr, hpattern, hm⟩
    obtain ⟨f, hf, hc, hmask⟩ := opcodeMap_agrees_with_formatTable.1 row hr
    exact ⟨f, hf, pattern_toNat_eq_opc_iff.mpr hpattern ▸ hc, mt (rowMatches_iff_reserved hf hmask hpattern).mpr hm⟩

theorem listed_of_reservedBit (h : ReservedBit w) : Listed w := by
  obtain ⟨f, hf, hc, -⟩ := h
  exact ⟨f, hf, hc⟩

/-- A word that matches a row has no reserved bit, since no other row has its opcode. -/
theorem not_reservedBit_of_rowMatches (hr : row ∈ opcodeMap) (hm : rowMatches w row = true) : ¬ ReservedBit w := by
  intro hbit
  obtain ⟨q, hq, hpattern, hnot⟩ := reservedBit_iff.mp hbit
  exact hnot (row_eq_of_pattern_eq hr hq ((pattern_eq_of_rowMatches hr hm).trans hpattern.symm) ▸ hm)

theorem decode_of_no_row (hnone : ∀ row ∈ opcodeMap, ¬ rowMatches w row = true) :
    decode w = .illegal (if opcodeListed w then .reservedBitSet else .unknownOpcode) := by
  simp only [decode, List.find?_eq_none.mpr hnone]

theorem decode_of_not_listed (h : ¬ Listed w) : decode w = .illegal .unknownOpcode := by
  rw [decode_of_no_row fun _ hr hm => h (listed_of_rowMatches hr hm), if_neg (mt opcodeListed_iff.mp h)]

theorem decode_of_reservedBit (h : ReservedBit w) : decode w = .illegal .reservedBitSet := by
  rw [decode_of_no_row fun _ hr hm => not_reservedBit_of_rowMatches hr hm h,
    if_pos (opcodeListed_iff.mpr (listed_of_reservedBit h))]

/-- The one row whose command can be ill-formed is ARK's, with RIDX above 10. -/
theorem not_wellFormed_command_iff (hr : row ∈ opcodeMap) :
    ¬ WellFormed (row.command w) ↔ row.pattern = 0x11#32 ∧ IndexAboveTen w := by
  revert row
  simp [opcodeMap, rowsSystem, rowsAes, rowsField, rowsRing, rowsKem, Instr.wellFormed, IndexAboveTen,
    fieldRidx_eq_extractLsb']

theorem not_wellFormed_of_rowMatches_iff (hr : row ∈ opcodeMap) (hm : rowMatches w row = true) :
    ¬ WellFormed (row.command w) ↔ opc w = 0x11 ∧ IndexAboveTen w := by
  rw [not_wellFormed_command_iff hr, ← pattern_toNat_eq_opc_iff.mpr (pattern_eq_of_rowMatches hr hm)]
  exact and_congr_left fun _ => BitVec.toNat_inj.symm

/-- The three ways of a word: its opcode is in no row, its row does not match, or its row matches. -/
theorem not_listed_or_reservedBit_or_rowMatches (w : Word) :
    ¬ Listed w ∨ ReservedBit w ∨ ∃ row ∈ opcodeMap, rowMatches w row = true := by
  by_cases hl : Listed w
  · obtain ⟨row, hr, hpattern⟩ := listed_iff.mp hl
    by_cases hm : rowMatches w row = true
    · exact .inr (.inr ⟨row, hr, hm⟩)
    · exact .inr (.inl (reservedBit_iff.mpr ⟨row, hr, hpattern, hm⟩))
  · exact .inl hl

theorem listed_of_opc_ark (h : opc w = 0x11) : Listed w := ⟨([0x11], 0xFFFFF000#32), by decide, by simp [h]⟩

theorem decode_eq_unknownOpcode_iff (w : Word) : decode w = .illegal .unknownOpcode ↔ ¬ Listed w := by
  obtain hl | hbit | ⟨row, hr, hm⟩ := not_listed_or_reservedBit_or_rowMatches w
  · simp [decode_of_not_listed hl, hl]
  · simp [decode_of_reservedBit hbit, listed_of_reservedBit hbit]
  · rw [decode_of_rowMatches hr hm]
    split <;> simp [listed_of_rowMatches hr hm]

theorem decode_eq_reservedBitSet_iff (w : Word) : decode w = .illegal .reservedBitSet ↔ ReservedBit w := by
  obtain hl | hbit | ⟨row, hr, hm⟩ := not_listed_or_reservedBit_or_rowMatches w
  · simp [decode_of_not_listed hl, mt listed_of_reservedBit hl]
  · simp [decode_of_reservedBit hbit, hbit]
  · rw [decode_of_rowMatches hr hm]
    split <;> simp [not_reservedBit_of_rowMatches hr hm]

theorem decode_eq_roundIndexAboveTen_iff (w : Word) :
    decode w = .illegal .roundIndexAboveTen ↔ opc w = 0x11 ∧ ¬ ReservedBit w ∧ IndexAboveTen w := by
  obtain hl | hbit | ⟨row, hr, hm⟩ := not_listed_or_reservedBit_or_rowMatches w
  · simp [decode_of_not_listed hl, mt listed_of_opc_ark hl]
  · simp [decode_of_reservedBit hbit, hbit]
  · rw [decode_of_rowMatches hr hm]
    simp [not_reservedBit_of_rowMatches hr hm, ← not_wellFormed_of_rowMatches_iff hr hm]

end

/-- Settles O3: a word's opcode is in no row, or its row does not match, or its row matches; each way has its answer,
and they exclude each other. -/
theorem decodeIsTheOpcodeMap : Obligations.DecodeIsTheOpcodeMap := by
  refine ⟨fun w row hr hmatch hindex => ?_, decode_eq_unknownOpcode_iff, decode_eq_reservedBitSet_iff,
    decode_eq_roundIndexAboveTen_iff⟩
  have hm := rowMatches_iff.mpr hmatch
  have hwf : WellFormed (row.command w) := not_not.mp (mt (not_wellFormed_of_rowMatches_iff hr hm).mp hindex)
  rw [decode_of_rowMatches hr hm, if_pos hwf]

/-- Settles O4: each word is looked up. -/
theorem writtenWordsDecode : Obligations.WrittenWordsDecode := by
  unfold Obligations.WrittenWordsDecode
  decide

end Sys2Proof.Proofs
end

section
/-! Issue of a command word by a write to CMD (30_encoding.md R85, R88). -/

namespace Sys2Proof.Proofs

open Machine

section
variable {s : State} {rest : List HostEvent} {w : Word}

/-- A write to CMD at an idle engine is an issue of its word. -/
theorem step_of_cmd_write (hidle : s.phase = .idle) (hin : s.inbox = .write 0 w :: rest) :
    step s = issue w (s.setInbox rest) := step_of_write hidle hin

theorem issue_of_command {i : Instr} (s : State) (h : decode w = .command i) :
    issue w s = exec i (s.beginCommand w) := by
  simp only [issue, h]

theorem issue_of_illegal {why : IllegalWord} (s : State) (h : decode w = .illegal why) :
    issue w s = .next ((s.beginCommand w).raiseErr .illegalCmd) := by
  simp only [issue, h]

end

theorem toOption_eq_some_iff {d : Decoded} {i : Instr} : d.toOption = some i ↔ d = .command i := by
  cases d <;> simp [Decoded.toOption]

/-- Settles O5: the presented write is performed, and issuing a legal word runs its command. -/
theorem stepRunsTheDecodedCommand : Obligations.StepRunsTheDecodedCommand := by
  refine ⟨fun s rest w i hidle hin hw => ?_, fun s nbits n i hword => ?_⟩
  · rw [step_of_cmd_write hidle hin, issue_of_command _ hw]
    rfl
  · have hw := toOption_eq_some_iff.mp hword
    refine ⟨_, hw, ?_⟩
    rw [step_of_cmd_write (s := s.withFetchWord nbits n) rfl rfl, issue_of_command _ hw]
    rfl

/-- Settles O6: issuing an ILLEGAL word is the error and nothing else. -/
theorem illegalWordChangesNothingElse : Obligations.IllegalWordChangesNothingElse := by
  refine ⟨fun s rest w why hidle hin hw => ?_, by decide⟩
  rw [step_of_cmd_write hidle hin, issue_of_illegal _ hw]
  rfl

end Sys2Proof.Proofs
end

section
/-! The field GF(2^8) of GFMUL (40_gf_tables.md R100, R101): a byte's residue modulo x^8+x^4+x^3+x+1. XOR is the sum
of residues, gfMul their product, and a byte is known by its residue, so the laws of gfMul are those of a commutative
ring. -/

namespace Sys2Proof.Proofs

open Machine Claims Polynomial

/-! ## Bytes as polynomials -/

theorem coeff_bytePoly (a : Byte) (n : Nat) : (bytePoly a).coeff n = if a.getLsbD n then 1 else 0 := by
  have term (i : Fin 8) : (if a.getLsbD i.val then X ^ i.val else 0 : (ZMod 2)[X]).coeff n =
      if n = i.val then (if a.getLsbD n then 1 else 0) else 0 := by
    split <;> simp_all [coeff_X_pow]
  rw [bytePoly, finsetSum_coeff, Finset.sum_congr rfl fun i _ => term i]
  by_cases h : n < 8
  · rw [Finset.sum_eq_single ⟨n, h⟩ (fun i _ hi => if_neg fun e => hi (Fin.ext e.symm)) (by simp), if_pos rfl]
  · simp [show ∀ i : Fin 8, n ≠ i.val by omega, BitVec.getLsbD_of_ge a n (by omega)]

theorem degree_bytePoly_lt (a : Byte) : (bytePoly a).degree < 8 :=
  (degree_lt_iff_coeff_zero _ 8).mpr fun n h => by simp [coeff_bytePoly, BitVec.getLsbD_of_ge a n h]

theorem bytePoly_eq_zero_iff {a : Byte} : bytePoly a = 0 ↔ a = 0#8 := by
  constructor
  · intro h
    refine BitVec.eq_of_getLsbD_eq fun n _ => ?_
    simpa [coeff_bytePoly] using congrArg (coeff · n) h
  · rintro rfl
    simp [bytePoly]

theorem bytePoly_xor (a b : Byte) : bytePoly (a ^^^ b) = bytePoly a + bytePoly b := by
  ext n
  rw [coeff_add, coeff_bytePoly, coeff_bytePoly, coeff_bytePoly, BitVec.getLsbD_xor]
  cases a.getLsbD n <;> cases b.getLsbD n <;> decide

/-- The lowest bit of a byte and the rest, as the loop takes them apart. -/
theorem bytePoly_eq_bit_add_X_mul (b : Byte) :
    bytePoly b = (if b.getLsbD 0 then 1 else 0 : (ZMod 2)[X]) + X * bytePoly (b >>> 1) := by
  ext n
  cases n with
  | zero =>
    rw [coeff_bytePoly, coeff_add, coeff_X_mul_zero, apply_ite (coeff · 0), coeff_one_zero, coeff_zero, add_zero]
  | succ n => cases h : b.getLsbD 0 <;> simp [coeff_bytePoly, coeff_one, Nat.add_comm 1 n]

/-- The doubling before reduction: the bit shifted out is the coefficient of x^8. -/
theorem X_mul_bytePoly (a : Byte) : X * bytePoly a = bytePoly (a <<< 1) + if a.getLsbD 7 then X ^ 8 else 0 := by
  ext n
  cases n with
  | zero => cases h : a.getLsbD 7 <;> simp [coeff_bytePoly, coeff_X_pow]
  | succ n =>
    rw [coeff_X_mul, coeff_add, coeff_bytePoly, coeff_bytePoly, apply_ite (coeff · (n + 1)), coeff_X_pow, coeff_zero]
    obtain hn | rfl | hn : n < 7 ∨ n = 7 ∨ 8 ≤ n := by omega
    · simp [show n + 1 < 8 by omega, show n < 8 by omega, show n ≠ 7 by omega]
    · simp
    · simp [BitVec.getLsbD_of_ge a n hn, show n ≠ 7 by omega, show ¬ n + 1 < 8 by omega]

/-! ## The residue of a byte -/

/-- The modulus of the field (40_gf_tables.md R101). -/
noncomputable def fieldModulus : (ZMod 2)[X] := X ^ 8 + X ^ 4 + X ^ 3 + X + 1

/-- A byte as an element of GF(2)[x] modulo the modulus. -/
noncomputable def residue (a : Byte) : AdjoinRoot fieldModulus := AdjoinRoot.mk fieldModulus (bytePoly a)

theorem degree_fieldModulus : fieldModulus.degree = 8 := by
  unfold fieldModulus
  compute_degree!

theorem monic_fieldModulus : fieldModulus.Monic := by
  unfold fieldModulus
  monicity!

@[simp] theorem residue_zero : residue 0#8 = 0 := by
  rw [residue, bytePoly_eq_zero_iff.mpr rfl, map_zero]

@[simp] theorem residue_one : residue 1#8 = 1 := by
  simp [residue, bytePoly]

@[simp] theorem residue_xor (a b : Byte) : residue (a ^^^ b) = residue a + residue b := by
  rw [residue, bytePoly_xor, map_add, residue, residue]

/-- A byte's polynomial is reduced already: its degree is below the modulus's. -/
theorem residue_eq_zero {a : Byte} (h : residue a = 0) : a = 0 := by
  by_contra hne
  exact AdjoinRoot.mk_ne_zero_of_degree_lt monic_fieldModulus (mt bytePoly_eq_zero_iff.mp hne)
    (degree_fieldModulus ▸ degree_bytePoly_lt a) h

theorem residue_add_self (a : Byte) : residue a + residue a = 0 := by
  rw [← residue_xor, BitVec.xor_self, residue_zero]

theorem residue_injective : Function.Injective residue := fun a b h => by
  have hxor : residue (a ^^^ b) = 0 := by rw [residue_xor, h, residue_add_self]
  exact BitVec.xor_eq_zero_iff.mp (residue_eq_zero hxor)

/-! ## The multiplier -/

/-- The reduction of 40_gf_tables.md R100: modulo the modulus, x^8 is 0x1B. -/
theorem mk_X_pow_eight : AdjoinRoot.mk fieldModulus (X ^ 8) = residue 0x1B := by
  have hlow : bytePoly 0x1B = 1 + X + X ^ 3 + X ^ 4 := by simp [bytePoly, Fin.sum_univ_eight]
  have hdiff : X ^ 8 - bytePoly 0x1B = fieldModulus := by
    rw [hlow, fieldModulus, CharTwo.sub_eq_add]
    ring
  exact AdjoinRoot.mk_eq_mk.mpr (dvd_of_eq hdiff.symm)

theorem residue_gfDouble (a : Byte) : residue (gfDouble a) = AdjoinRoot.root fieldModulus * residue a := by
  have shifted := congrArg (AdjoinRoot.mk fieldModulus) (X_mul_bytePoly a)
  rw [map_mul, map_add, AdjoinRoot.mk_X, apply_ite (AdjoinRoot.mk fieldModulus), mk_X_pow_eight, map_zero] at shifted
  rw [gfDouble, apply_ite residue, residue_xor]
  refine Eq.trans ?_ shifted.symm
  split
  · rfl
  · exact (add_zero _).symm

theorem residue_eq_bit_add_root_mul (b : Byte) :
    residue b = (if b.getLsbD 0 then 1 else 0 : AdjoinRoot fieldModulus) +
      AdjoinRoot.root fieldModulus * residue (b >>> 1) := by
  conv_lhs => rw [residue, bytePoly_eq_bit_add_X_mul]
  rw [map_add, map_mul, AdjoinRoot.mk_X, apply_ite (AdjoinRoot.mk fieldModulus), map_one, map_zero, residue]

/-- The loop's invariant: the accumulator and the product of what is left of the factors keep their sum. -/
theorem residue_gfMulLoop (n : Nat) (a b p : Byte) (hb : b.toNat < 2 ^ n) :
    residue (gfMulLoop n a b p) = residue p + residue a * residue b := by
  induction n generalizing a b p with
  | zero =>
    obtain rfl : b = 0#8 := BitVec.eq_of_toNat_eq (by simpa using hb)
    simp [gfMulLoop]
  | succ n ih =>
    rw [gfMulLoop]
    split
    case isTrue h => simp [h]
    case isFalse h =>
      have hshift : (b >>> 1).toNat < 2 ^ n := by
        rw [BitVec.toNat_ushiftRight, Nat.shiftRight_eq_div_pow]
        omega
      rw [ih _ _ _ hshift, residue_gfDouble, residue_eq_bit_add_root_mul b]
      split
      · rw [residue_xor]
        ring
      · ring

@[simp] theorem residue_gfMul (a b : Byte) : residue (gfMul a b) = residue a * residue b := by
  rw [gfMul, residue_gfMulLoop 8 a b 0#8 b.isLt, residue_zero, zero_add]

theorem gfMul_comm (a b : Byte) : gfMul a b = gfMul b a := residue_injective (by simp [mul_comm])

theorem gfMul_assoc (a b c : Byte) : gfMul (gfMul a b) c = gfMul a (gfMul b c) := residue_injective (by simp [mul_assoc])

theorem gfMul_xor (a b c : Byte) : gfMul a (b ^^^ c) = gfMul a b ^^^ gfMul a c := residue_injective (by simp [mul_add])

theorem gfMul_zero (a : Byte) : gfMul a 0 = 0 := residue_injective (by simp)

theorem gfMul_one (a : Byte) : gfMul a 1 = a := residue_injective (by simp)

/-- The doubling of 40_gf_tables.md R100 is the product with 2. -/
theorem gfMul_two (a : Byte) : gfMul a 2 = gfDouble a := BitVec.zero_xor

theorem gfMul_three (a : Byte) : gfMul a 3 = gfMul a 2 ^^^ a := by
  rw [show (3 : Byte) = 2 ^^^ 1 from rfl, gfMul_xor, gfMul_one]

theorem eq_of_gfMul_eq_one {a b c : Byte} (hb : gfMul a b = 1) (hc : gfMul a c = 1) : b = c := by
  calc b = gfMul (gfMul a c) b := by rw [hc, gfMul_comm, gfMul_one]
    _ = gfMul c (gfMul a b) := by rw [gfMul_comm a c, gfMul_assoc]
    _ = c := by rw [hb, gfMul_one]

end Sys2Proof.Proofs
end

section
/-! The substitution tables (40_gf_tables.md R103, R104) and the byte commands (R106 to R108). An entry of SBOX is the
affine image of a field inverse, so undoing the affine map on it names the inverse of a nonzero byte. -/

namespace Sys2Proof.Proofs

open Machine Claims

/-- The inverse of the affine map of the S-box. -/
def unaffine (y : Byte) : Byte := y.rotateLeft 1 ^^^ y.rotateLeft 3 ^^^ y.rotateLeft 6 ^^^ 0x05#8

theorem affine_unaffine (y : Byte) : affine (unaffine y) = y := by
  revert y
  decide +kernel

/-- The definition of 40_gf_tables.md R103, checked entry by entry: unaffine ∘ sbox is the field inverse. -/
theorem gfMul_unaffine_sbox (b : Byte) (hb : b ≠ 0) : gfMul b (unaffine (sbox b)) = 1 := by
  revert b
  decide +kernel

theorem isbox_sbox (b : Byte) : isbox (sbox b) = b := by
  revert b
  decide +kernel

theorem sbox_isbox (y : Byte) : sbox (isbox y) = y := by
  revert y
  decide +kernel

/-- Settles O22: each command is its one write of BRES; the examples are run. -/
theorem byteCommands : Obligations.ByteCommands :=
  ⟨fun s a b => exec_eq (.gfmul a b) s, fun s a => exec_eq (.sbox a) s, fun s a => exec_eq (.isbox a) s, by decide⟩

/-- Settles O23: the laws are those of the ring of residues, and the S-box names the inverses. -/
theorem gfMulIsTheFieldProduct : Obligations.GfMulIsTheFieldProduct := by
  refine ⟨fun a b => ?_, gfMul_comm, gfMul_assoc, gfMul_xor, fun a => ⟨gfMul_zero a, ?_, gfMul_one a⟩, fun a ha => ?_,
    fun a => ⟨gfMul_two a, gfMul_three a⟩, by decide⟩
  · refine AdjoinRoot.mk_eq_mk.mp ?_
    rw [map_mul]
    exact (residue_gfMul a b).symm
  · rw [gfMul_comm, gfMul_zero]
  · have hinv := gfMul_unaffine_sbox a ha
    exact ⟨_, hinv, fun c hc => eq_of_gfMul_eq_one hc hinv⟩

/-- Settles O24: the inverse of a byte is read off its entry of SBOX, 0 off the entry of 0. -/
theorem substitutionTables : Obligations.SubstitutionTables := by
  refine ⟨fun b => ⟨unaffine (sbox b), ?_, gfMul_unaffine_sbox b, (affine_unaffine _).symm⟩, isbox_sbox, sbox_isbox,
    by decide⟩
  rintro rfl
  decide

end Sys2Proof.Proofs
end

section
/-! The AES round transforms (41_aes_round.md R120 to R128). A block is its 4×4 matrix of bytes: what a transform does is
said once, entry by entry, and two blocks are equal when their matrices are. A column mix is linear: on the residues of
the bytes in GF(2^8) it multiplies each column by the residues of its matrix, and IMIX · MIX = MIX · IMIX = 1. -/

namespace Sys2Proof.Proofs

open Machine
open scoped Matrix

/-! ## Blocks as matrices -/

section
variable (b k : Block) (r c : Fin 4)

@[simp] theorem matrixByte_blockOfMatrix (m : Fin 4 → Fin 4 → Byte) : matrixByte (blockOfMatrix m) r c = m r c := by
  have hrow : (r.val + 4 * c.val) % 4 = r.val := by omega
  have hcol : (r.val + 4 * c.val) / 4 = c.val := by omega
  simp only [matrixByte, blockOfMatrix, Vector.getElem_ofFn, hrow, hcol]

@[simp] theorem matrixByte_subBytes : matrixByte (subBytes b) r c = sbox (matrixByte b r c) := Vector.getElem_map ..

@[simp] theorem matrixByte_invSubBytes : matrixByte (invSubBytes b) r c = isbox (matrixByte b r c) :=
  Vector.getElem_map ..

@[simp] theorem matrixByte_shiftRows : matrixByte (shiftRows b) r c = matrixByte b r (c + r) :=
  matrixByte_blockOfMatrix ..

@[simp] theorem matrixByte_invShiftRows : matrixByte (invShiftRows b) r c = matrixByte b r (c - r) :=
  matrixByte_blockOfMatrix ..

@[simp] theorem matrixByte_addRoundKey : matrixByte (addRoundKey b k) r c = matrixByte b r c ^^^ matrixByte k r c :=
  Vector.getElem_zipWith ..

theorem matrixByte_mixBy (mx : Vector (Vector Byte 4) 4) : matrixByte (mixBy mx b) r c =
    gfMul mx[r][0] (matrixByte b 0 c) ^^^ gfMul mx[r][1] (matrixByte b 1 c)
      ^^^ gfMul mx[r][2] (matrixByte b 2 c) ^^^ gfMul mx[r][3] (matrixByte b 3 c) :=
  matrixByte_blockOfMatrix ..

theorem getElem_eq_matrixByte : b[4 * c.val + r.val] = matrixByte b r c := by
  simp only [matrixByte, Nat.add_comm]

end

theorem block_ext_matrixByte {a b : Block} (h : ∀ r c, matrixByte a r c = matrixByte b r c) : a = b :=
  Vector.ext fun k hk => by
    simpa only [matrixByte, Nat.mod_add_div] using h ⟨k % 4, by omega⟩ ⟨k / 4, by omega⟩

/-- The bytes of a block are its matrix, column after column (20_memory.md R54). -/
theorem blockOfMatrix_eq (m : Fin 4 → Fin 4 → Byte) : blockOfMatrix m =
    #v[m 0 0, m 1 0, m 2 0, m 3 0, m 0 1, m 1 1, m 2 1, m 3 1, m 0 2, m 1 2, m 2 2, m 3 2, m 0 3, m 1 3, m 2 3,
      m 3 3] := by
  refine block_ext_matrixByte fun r c => ?_
  rw [matrixByte_blockOfMatrix]
  fin_cases r <;> fin_cases c <;> rfl

/-! ## A column mix is multiplication by its matrix -/

/-- The entries of a mixing matrix as elements of GF(2^8). -/
noncomputable def residueMatrix (mx : Vector (Vector Byte 4) 4) : Matrix (Fin 4) (Fin 4) (AdjoinRoot fieldModulus) :=
  Matrix.of fun i j => residue mx[i][j]

/-- A column of a block as a vector over GF(2^8). -/
noncomputable def residueColumn (b : Block) (c : Fin 4) : Fin 4 → AdjoinRoot fieldModulus :=
  fun r => residue (matrixByte b r c)

theorem block_ext_residueColumn {a b : Block} (h : ∀ c, residueColumn a c = residueColumn b c) : a = b :=
  block_ext_matrixByte fun r c => residue_injective (congrFun (h c) r)

theorem residueColumn_mixBy (mx : Vector (Vector Byte 4) 4) (b : Block) (c : Fin 4) :
    residueColumn (mixBy mx b) c = residueMatrix mx *ᵥ residueColumn b c := by
  funext r
  simp [residueColumn, residueMatrix, matrixByte_mixBy, Matrix.mulVec, dotProduct, Fin.sum_univ_four]

theorem residueColumn_addRoundKey (b k : Block) (c : Fin 4) :
    residueColumn (addRoundKey b k) c = residueColumn b c + residueColumn k c := by
  funext r
  simp [residueColumn]

/-- A matrix product, column by column: one matrix mixes the columns of the other. -/
theorem residueMatrix_mul_eq_one {mx nx : Vector (Vector Byte 4) 4}
    (h : mixBy mx (blockOfMatrix fun r c => nx[r][c]) = blockOfMatrix fun r c => if r = c then 1 else 0) :
    residueMatrix mx * residueMatrix nx = 1 := by
  ext r c
  have hcol := congrFun (residueColumn_mixBy mx (blockOfMatrix fun r c => nx[r][c]) c) r
  rw [h] at hcol
  simpa [residueColumn, residueMatrix, Matrix.mul_apply, Matrix.mulVec, dotProduct, Matrix.one_apply, apply_ite residue]
    using hcol.symm

theorem mixBy_mixBy {mx nx : Vector (Vector Byte 4) 4} (h : residueMatrix mx * residueMatrix nx = 1) (b : Block) :
    mixBy mx (mixBy nx b) = b := block_ext_residueColumn fun c => by
  rw [residueColumn_mixBy, residueColumn_mixBy, Matrix.mulVec_mulVec, h, Matrix.one_mulVec]

theorem mixBy_addRoundKey (mx : Vector (Vector Byte 4) 4) (b k : Block) :
    mixBy mx (addRoundKey b k) = addRoundKey (mixBy mx b) (mixBy mx k) := block_ext_residueColumn fun c => by
  simp only [residueColumn_addRoundKey, residueColumn_mixBy, Matrix.mulVec_add]

theorem invMixMatrix_mul_mixMatrix : residueMatrix invMixMatrix * residueMatrix mixMatrix = 1 :=
  residueMatrix_mul_eq_one (by decide +kernel)

theorem mixMatrix_mul_invMixMatrix : residueMatrix mixMatrix * residueMatrix invMixMatrix = 1 :=
  residueMatrix_mul_eq_one (by decide +kernel)

/-! ## The laws of the round transforms -/

section
variable (b k : Block)

@[simp] theorem invSubBytes_subBytes : invSubBytes (subBytes b) = b :=
  block_ext_matrixByte fun r c => by simp [isbox_sbox]

@[simp] theorem subBytes_invSubBytes : subBytes (invSubBytes b) = b :=
  block_ext_matrixByte fun r c => by simp [sbox_isbox]

@[simp] theorem invShiftRows_shiftRows : invShiftRows (shiftRows b) = b :=
  block_ext_matrixByte fun r c => by simp

@[simp] theorem shiftRows_invShiftRows : shiftRows (invShiftRows b) = b :=
  block_ext_matrixByte fun r c => by simp

@[simp] theorem invMixColumns_mixColumns : invMixColumns (mixColumns b) = b :=
  mixBy_mixBy invMixMatrix_mul_mixMatrix b

@[simp] theorem mixColumns_invMixColumns : mixColumns (invMixColumns b) = b :=
  mixBy_mixBy mixMatrix_mul_invMixMatrix b

@[simp] theorem addRoundKey_addRoundKey : addRoundKey (addRoundKey b k) k = b :=
  block_ext_matrixByte fun r c => by simp

/-- A substitution acts on each byte by itself, wherever the row shift puts it. -/
theorem subBytes_shiftRows : subBytes (shiftRows b) = shiftRows (subBytes b) :=
  block_ext_matrixByte fun r c => by simp

theorem invSubBytes_invShiftRows : invSubBytes (invShiftRows b) = invShiftRows (invSubBytes b) :=
  block_ext_matrixByte fun r c => by simp

theorem invMixColumns_addRoundKey :
    invMixColumns (addRoundKey b k) = addRoundKey (invMixColumns b) (invMixColumns k) :=
  mixBy_addRoundKey invMixMatrix b k

end

/-- Settles O29: the laws above; a key that InvMixColumns changes shows that it does not commute with the key's XOR. -/
theorem roundTransformLaws : Obligations.RoundTransformLaws :=
  ⟨fun b => ⟨invSubBytes_subBytes b, subBytes_invSubBytes b⟩,
    fun b => ⟨invShiftRows_shiftRows b, shiftRows_invShiftRows b⟩,
    fun b => ⟨invMixColumns_mixColumns b, mixColumns_invMixColumns b⟩, addRoundKey_addRoundKey,
    fun b => ⟨subBytes_shiftRows b, invSubBytes_invShiftRows b⟩, invMixColumns_addRoundKey,
    zeroBlock, zeroBlock.set 0 1, by decide +kernel⟩

/-! ## The commands -/

/-- A command whose one effect is a write of ST, as a next state. -/
theorem exec_of_writeSt {i : Instr} {s : State} {x y : Block} (h : exec i s = .next (s.writeSt x).complete)
    (hxy : x = y) : exec i s = .next { s with st := y, res := .ok, done := true } := by
  rw [h, hxy]
  rfl

theorem subBytes_eq_ofFn (b : Block) : subBytes b = Vector.ofFn fun k : Fin 16 => sbox b[k] :=
  Vector.ext fun k hk => by simp [subBytes]

theorem invSubBytes_eq_ofFn (b : Block) : invSubBytes b = Vector.ofFn fun k : Fin 16 => isbox b[k] :=
  Vector.ext fun k hk => by simp [invSubBytes]

theorem addRoundKey_eq_ofFn (b k : Block) : addRoundKey b k = Vector.ofFn fun i : Fin 16 => b[i] ^^^ k[i] :=
  Vector.ext fun i hi => by simp [addRoundKey]

/-- Settles O25: each command is its one write of ST, which maps a table over the bytes. -/
theorem substitutionCommands : Obligations.SubstitutionCommands :=
  ⟨by decide, by decide, fun s => ⟨exec_of_writeSt (exec_eq .subb s) (subBytes_eq_ofFn s.st),
    exec_of_writeSt (exec_eq .isubb s) (invSubBytes_eq_ofFn s.st)⟩⟩

/-- Settles O26: each command is its one write of ST; entry (r, c) of the new matrix is entry (r, c ± r) of the old. -/
theorem rowShiftCommands : Obligations.RowShiftCommands :=
  ⟨by decide, by decide, fun s => ⟨exec_of_writeSt (exec_eq .shrow s) (blockOfMatrix_eq _),
    exec_of_writeSt (exec_eq .ishrow s) (blockOfMatrix_eq _)⟩⟩

/-- A byte of a mixed column: the row of the matrix against the column (41_aes_round.md R125, R126). -/
theorem getElem_mixBy (mx : Vector (Vector Byte 4) 4) (b : Block) (i c : Fin 4) : (mixBy mx b)[4 * c.val + i.val] =
    gfMul b[4 * c.val] mx[i][0] ^^^ gfMul b[4 * c.val + 1] mx[i][1] ^^^ gfMul b[4 * c.val + 2] mx[i][2]
      ^^^ gfMul b[4 * c.val + 3] mx[i][3] := by
  have column (r : Fin 4) := getElem_eq_matrixByte b r c
  rw [getElem_eq_matrixByte, matrixByte_mixBy, ← column 0, ← column 1, ← column 2, ← column 3]
  simp only [gfMul_comm mx[i][0], gfMul_comm mx[i][1], gfMul_comm mx[i][2], gfMul_comm mx[i][3]]
  rfl

/-- Settles O27: each command is its one write of ST; byte i of a column is row i of the matrix against it. -/
theorem columnMixCommands : Obligations.ColumnMixCommands := by
  refine ⟨by decide, by decide, fun s => ⟨⟨_, exec_of_writeSt (exec_eq .mixc s) rfl, rfl, fun c => ?_⟩,
    _, exec_of_writeSt (exec_eq .imixc s) rfl, rfl, fun c => ?_⟩⟩
  · have row := getElem_mixBy mixMatrix s.st (c := c)
    have unit (a : Byte) : gfMul a 1#8 = a := gfMul_one a
    refine ⟨(row 0).trans ?_, (row 1).trans ?_, (row 2).trans ?_, (row 3).trans ?_⟩ <;> simp [mixMatrix, unit]
  · have row := getElem_mixBy invMixMatrix s.st (c := c)
    exact ⟨row 0, row 1, row 2, row 3⟩

theorem roundIndex_mod (r : Fin 11) : r.val % 16 = r.val := Nat.mod_eq_of_lt (by omega)

theorem exec_ark_of_schedule {s : State} (r : Fin 11) (hkv : s.kv = true) :
    exec (.ark (BitVec.ofNat 4 r.val)) s = .next (s.writeSt (addRoundKey s.st s.rk[r])).complete := by
  simp [exec_eq, commandResult, commandError, commandEffect, roundIndex_mod, hkv]

theorem exec_ark_of_no_schedule {s : State} (r : Fin 11) (hkv : s.kv = false) :
    exec (.ark (BitVec.ofNat 4 r.val)) s = .next (s.raiseErr .noSchedule) := by
  simp [exec_eq, commandResult, commandError, roundIndex_mod, hkv]

theorem exec_ark_of_index_above_ten (s : State) (r : BitVec 4) (hr : 10 < r.toNat) :
    exec (.ark r) s = .next (s.raiseErr .illegalCmd) := by
  simp [exec_eq, commandResult, commandError, Nat.not_lt.mpr (Nat.succ_le_of_lt hr)]

/-- Settles O28: the three ways of the command, its sixteen words, and a round key added twice. -/
theorem arkCommand : Obligations.ArkCommand := by
  refine ⟨fun s r hkv => exec_of_writeSt (exec_ark_of_schedule r hkv) (addRoundKey_eq_ofFn ..),
    fun s r hkv => exec_ark_of_no_schedule r hkv, exec_ark_of_index_above_ten, by decide, fun s t u r hkv ht hu => ?_⟩
  obtain rfl : _ = t := Host.Outcome.next.inj ((exec_ark_of_schedule r hkv).symm.trans ht)
  obtain rfl : _ = u := Host.Outcome.next.inj ((exec_ark_of_schedule r (by exact hkv)).symm.trans hu)
  exact addRoundKey_addRoundKey s.st s.rk[r]

end Sys2Proof.Proofs
end

section
/-! The AES-128 key schedule and KEYEXP (42_key_schedule.md R140 to R144). A round key is its four words: the recurrence
is said once, word by word. Forwards it gives the bytes KEYEXP writes; backwards, each word but the first is the XOR of
two words of the next round key, and the last of them fixes what was added to the first. -/

namespace Sys2Proof.Proofs

open Machine Claims

/-! ## Words of a round key -/

@[simp] theorem getElem_keyWord (x : Block) (i j : Fin 4) : (keyWord x i)[j.val] = x[4 * i.val + j.val] :=
  Vector.getElem_ofFn ..

@[simp] theorem getElem_xorWord (a b : KeyWord) (j : Fin 4) : (xorWord a b)[j.val] = a[j.val] ^^^ b[j.val] :=
  Vector.getElem_zipWith ..

theorem xorWord_left_inj {a b c : KeyWord} : xorWord a c = xorWord b c ↔ a = b := by
  refine ⟨fun h => Vector.ext fun j hj => ?_, congrArg (xorWord · c)⟩
  have hbyte := congrArg (·[j]) h
  simpa [xorWord] using hbyte

theorem block_ext_keyWord {x y : Block} (h : ∀ i, keyWord x i = keyWord y i) : x = y :=
  Vector.ext fun k hk => by
    have hbyte := congrArg (·[k % 4]'(by omega)) (h ⟨k / 4, by omega⟩)
    simpa [keyWord, Nat.div_add_mod] using hbyte

theorem keyWord_append (a b c d : KeyWord) (i : Fin 4) : keyWord (a ++ b ++ c ++ d) i = #v[a, b, c, d][i] := by
  refine Vector.ext fun j hj => ?_
  fin_cases i <;> simp [keyWord] <;> grind

/-! ## The recurrence -/

/-- The word t that the round function makes of a round key's last word and adds to its first one (42_key_schedule.md
R140). -/
def addedWord (r : Nat) (prev : Block) : KeyWord := addRcon r (subWord (rotWord (keyWord prev 3)))

section
variable (r : Nat) (prev : Block)

theorem keyWord_nextRoundKey_zero :
    keyWord (nextRoundKey r prev) 0 = xorWord (keyWord prev 0) (addedWord r prev) := keyWord_append ..

theorem keyWord_nextRoundKey_succ (i : Fin 3) :
    keyWord (nextRoundKey r prev) i.succ =
      xorWord (keyWord prev i.succ) (keyWord (nextRoundKey r prev) i.castSucc) := by
  simp only [nextRoundKey, keyWord_append]
  fin_cases i <;> rfl

end

/-- The table of round constants is the doublings of 1 (42_key_schedule.md R141). -/
theorem rcon_succ (r : Fin 10) : rcon (r.val + 1) = doublings r.val := by
  revert r
  decide

theorem getElem_addedWord (r : Fin 10) (prev : Block) (j : Fin 4) :
    (addedWord (r.val + 1) prev)[j.val] = scheduleByte (r.val + 1) prev j := by
  rw [scheduleByte, Nat.add_sub_cancel, ← rcon_succ]
  fin_cases j <;> simp [addedWord, addRcon, subWord, rotWord, keyWord]

theorem getElem_nextRoundKey_first (r : Fin 10) (prev : Block) (j : Fin 4) :
    (nextRoundKey (r.val + 1) prev)[j.val] = prev[j.val] ^^^ scheduleByte (r.val + 1) prev j := by
  have hword := congrArg (·[j.val]) (keyWord_nextRoundKey_zero (r.val + 1) prev)
  simpa [getElem_addedWord] using hword

theorem getElem_nextRoundKey_later (r : Nat) (prev : Block) (i : Fin 3) (j : Fin 4) :
    (nextRoundKey r prev)[4 * (i.val + 1) + j.val] =
      prev[4 * (i.val + 1) + j.val] ^^^ (nextRoundKey r prev)[4 * i.val + j.val] := by
  have hword := congrArg (·[j.val]) (keyWord_nextRoundKey_succ r prev i)
  simpa using hword

/-! ## The recurrence backwards -/

/-- 42_key_schedule.md R144: a round key determines the one before it, from the last word to the first. -/
theorem nextRoundKey_injective (r : Nat) : Function.Injective (nextRoundKey r) := fun x y h => by
  have hsucc (i : Fin 3) : keyWord x i.succ = keyWord y i.succ := by
    have hword : keyWord (nextRoundKey r x) i.succ = keyWord (nextRoundKey r y) i.succ := by rw [h]
    rw [keyWord_nextRoundKey_succ, keyWord_nextRoundKey_succ, h] at hword
    exact xorWord_left_inj.mp hword
  have hadded : addedWord r x = addedWord r y := congrArg (fun w => addRcon r (subWord (rotWord w))) (hsucc 2)
  have hzero : keyWord x 0 = keyWord y 0 := by
    have hword : keyWord (nextRoundKey r x) 0 = keyWord (nextRoundKey r y) 0 := by rw [h]
    rw [keyWord_nextRoundKey_zero, keyWord_nextRoundKey_zero, hadded] at hword
    exact xorWord_left_inj.mp hword
  exact block_ext_keyWord (Fin.cases hzero hsucc)

theorem roundKey_injective (r : Nat) : Function.Injective (roundKey · r) := by
  induction r with
  | zero => exact Function.injective_id
  | succ n ih => exact (nextRoundKey_injective (n + 1)).comp ih

/-! ## The schedule -/

theorem getElem_expand (k : Block) {r : Nat} (hr : r < 11) : (expand k)[r] = roundKey k r := Vector.getElem_ofFn ..

theorem rk_commandResult_keyexp (s : State) : (commandResult .keyexp s).rk = expand s.key := rfl

/-- Settles O30: the round keys KEYEXP writes are those of the recurrence, read byte by byte. -/
theorem keyexpCommand : Obligations.KeyexpCommand := by
  refine fun s => ⟨_, exec_eq .keyexp s, rfl, getElem_expand s.key (by decide), fun r j => ?_⟩
  simp only [rk_commandResult_keyexp, getElem_expand, roundKey]
  have later := getElem_nextRoundKey_later (r.val + 1) (roundKey s.key r.val) (j := j)
  exact ⟨getElem_nextRoundKey_first r _ j, by simpa using later 0, later 1, later 2⟩

/-- Settles O31: every round of the recurrence is injective. -/
theorem everyRoundKeyDeterminesTheKey : Obligations.EveryRoundKeyDeterminesTheKey := by
  intro k l r h
  rw [Fin.getElem_fin, Fin.getElem_fin, getElem_expand, getElem_expand] at h
  exact roundKey_injective r.val h

end Sys2Proof.Proofs
end

section
/-! The AES engine (43_aes_engine.md R150 to R156): a row of the sequencer's table as a step of the machine; ENC and DEC
as Encrypt and Decrypt and as their sequences of primitive commands; and the round trip, which undoes the rounds from
the last to the first. -/

namespace Sys2Proof.Proofs

open Machine Laws Claims

/-! ## The rows of the sequencer's table -/

section
variable {s t : State}

theorem step_of_engineStep (h : engineStep s = some t) (hreset : ¬ ResetPresented s) : step s = .next t := by
  obtain ⟨-, hrun, -⟩ := engineStep_cases h
  rw [step_of_running hrun hreset, sequencerStep, h]

/-- A row that does not end the command: ST, PHASE and RND move. -/
theorem step_of_row (hreset : ¬ ResetPresented s) {b : Block} {ph : Phase} {r : Fin 11}
    (h : engineStep s = some ((s.writeSt b).setSequencer ph s.mode r)) :
    step s = .next { s with st := b, phase := ph, rnd := r } :=
  step_of_engineStep h hreset

/-- A row that ends the command. -/
theorem step_of_last_row (hreset : ¬ ResetPresented s) {b : Block}
    (h : engineStep s = some ((s.writeSt b).setSequencer .idle s.mode 0).complete) :
    step s = .next { s with st := b, phase := .idle, rnd := 0, res := .ok, done := true } :=
  step_of_engineStep h hreset

/-- A row that moves to a state of the same PHASE: ST and RND move. -/
theorem step_of_round_row (hreset : ¬ ResetPresented s) {b : Block} {r : Fin 11}
    (h : engineStep s = some ((s.writeSt b).setSequencer s.phase s.mode r)) :
    step s = .next { s with st := b, rnd := r } :=
  step_of_engineStep h hreset

end

/-- Settles O37: the branch of the engine step that each row of the table names. -/
theorem sequencerRows : Obligations.SequencerRows := by
  refine fun s hreset => ⟨?initialEncrypt, ?roundEncrypt, ?lastRoundEncrypt, ?finalEncrypt,
    ?initialDecrypt, ?roundDecrypt, ?lastRoundDecrypt, ?finalDecrypt⟩
  case roundEncrypt =>
    exact fun r hp hm hr hlow hhigh => step_of_round_row hreset
      (by simp [engineStep, hp, hm, hr, hlow, hhigh, encryptRound])
  case roundDecrypt =>
    exact fun r hp hm hr hlow hhigh => step_of_round_row hreset
      (by simp [engineStep, hp, hm, hr, hlow, hhigh, decryptRound])
  case initialEncrypt | initialDecrypt =>
    exact fun hp hm hr => step_of_row hreset (by simp [engineStep, hp, hm, hr])
  case lastRoundEncrypt | lastRoundDecrypt =>
    exact fun hp hm hr => step_of_row hreset (by simp [engineStep, hp, hm, hr, encryptRound, decryptRound])
  case finalEncrypt | finalDecrypt =>
    exact fun hp hm hr => step_of_last_row hreset (by simp [engineStep, hp, hm, hr, encryptFinal, decryptFinal])

/-- Settles O38: an engine step starts in a row of the table, so off the table there is none. -/
theorem sequencerOffItsTableStops : Obligations.SequencerOffItsTableStops := by
  intro s hoff hrun hreset
  rw [step_of_running hrun hreset]
  obtain ⟨t, ht, -⟩ | ⟨-, hstuck⟩ := sequencerStep_cases s
  · obtain ⟨hlegal, -⟩ := engineStep_cases ht
    exact absurd hlegal hoff
  · exact hstuck

/-! ## ENC and DEC -/

section
variable (s : State)

theorem exec_enc_of_schedule (hkv : s.kv = true) :
    exec .enc s = .next ((s.writeSt (encrypt s.st s.rk)).setSequencer .idle .encrypt 0).complete := by
  simp [exec_eq, commandResult, commandError, commandEffect, hkv]

theorem exec_dec_of_schedule (hkv : s.kv = true) :
    exec .dec s = .next ((s.writeSt (decrypt s.st s.rk)).setSequencer .idle .decrypt 0).complete := by
  simp [exec_eq, commandResult, commandError, commandEffect, hkv]

theorem exec_enc_of_no_schedule (hkv : s.kv = false) : exec .enc s = .next (s.raiseErr .noSchedule) := by
  simp [exec_eq, commandResult, commandError, hkv]

theorem exec_dec_of_no_schedule (hkv : s.kv = false) : exec .dec s = .next (s.raiseErr .noSchedule) := by
  simp [exec_eq, commandResult, commandError, hkv]

end

/-- Settles O32: the eleven engine steps of ENC are Encrypt. -/
theorem encCommand : Obligations.EncCommand :=
  ⟨exec_enc_of_schedule, exec_enc_of_no_schedule⟩

/-- Settles O33: the eleven engine steps of DEC are Decrypt. -/
theorem decCommand : Obligations.DecCommand :=
  ⟨exec_dec_of_schedule, exec_dec_of_no_schedule⟩

/-! ## The round trip -/

/-- Where every g undoes the f of the same key beneath d, the g's in reverse order undo the f's beneath d. -/
theorem foldl_reverse_foldl {α κ : Type} {f g : α → κ → α} {d : α → α} (h : ∀ x k, g (d (f x k)) k = d x)
    (ks : List κ) (x : α) : ks.reverse.foldl g (d (ks.foldl f x)) = d x := by
  induction ks generalizing x with
  | nil => rfl
  | cons k ks ih => rw [List.reverse_cons, List.foldl_append, List.foldl_cons (l := ks), ih]; exact h x k

section
variable (x k : Block)

/-- A decryption round begins by undoing the SubBytes and ShiftRows of the next encryption round, and ends at those of
its own. -/
theorem decryptRound_encryptRound :
    decryptRound (shiftRows (subBytes (encryptRound x k))) k = shiftRows (subBytes x) := by
  simp [decryptRound, encryptRound]

/-- An encryption round begins by undoing the InvShiftRows and InvSubBytes of the next decryption round, and ends at
those of its own. -/
theorem encryptRound_decryptRound :
    encryptRound (invSubBytes (invShiftRows (decryptRound x k))) k = invSubBytes (invShiftRows x) := by
  simp [decryptRound, encryptRound]

end

section
variable (b : Block) (sched : Schedule)

theorem decrypt_encrypt : decrypt (encrypt b sched) sched = b := by
  rw [decrypt, encrypt, encryptFinal, addRoundKey_addRoundKey,
    foldl_reverse_foldl (d := fun x => shiftRows (subBytes x)) fun x (r : Fin 11) =>
      decryptRound_encryptRound x sched[r]]
  simp [decryptFinal]

theorem encrypt_decrypt : encrypt (decrypt b sched) sched = b := by
  have rounds := foldl_reverse_foldl (f := fun x (r : Fin 11) => decryptRound x sched[r])
    (g := fun x r => encryptRound x sched[r]) (d := fun x => invSubBytes (invShiftRows x))
    (fun x r => encryptRound_decryptRound x sched[r]) middleRounds.reverse
  rw [List.reverse_reverse] at rounds
  rw [decrypt, encrypt, decryptFinal, addRoundKey_addRoundKey, rounds]
  simp [encryptFinal]

end

/-- Settles O34: for any eleven round keys, and so for those of a key. -/
theorem cipherRoundTrip : Obligations.CipherRoundTrip :=
  ⟨fun b sched => ⟨decrypt_encrypt b sched, encrypt_decrypt b sched⟩,
    fun b k => ⟨decrypt_encrypt b (expand k), encrypt_decrypt b (expand k)⟩⟩

/-! ## Sequences of commands -/

theorem execAll_cons {s t : State} {c : Instr} (h : exec c s = .next t) (cs : List Instr) :
    execAll (c :: cs) s = execAll cs t := by
  simp only [execAll, h]

/-- Settles O35: the second command undoes the first one's block under the same schedule. -/
theorem encDecRestoreTheState : Obligations.EncDecRestoreTheState := by
  intro s hkv
  constructor
  · rw [execAll_cons (exec_enc_of_schedule s hkv), execAll_cons (exec_dec_of_schedule _ (by exact hkv))]
    exact congrArg (fun b => Host.Outcome.next ((s.writeSt b).setSequencer .idle .decrypt 0).complete)
      (decrypt_encrypt s.st s.rk)
  · rw [execAll_cons (exec_dec_of_schedule s hkv), execAll_cons (exec_enc_of_schedule _ (by exact hkv))]
    exact congrArg (fun b => Host.Outcome.next ((s.writeSt b).setSequencer .idle .encrypt 0).complete)
      (encrypt_decrypt s.st s.rk)

section
variable (s : State) (b : Block) (cs : List Instr)

/-- A command whose one effect is to transform ST, after commands of that kind. -/
theorem execAll_transform_cons {c : Instr} (f : Block → Block)
    (h : ∀ t : State, exec c t = .next (t.writeSt (f t.st)).complete) :
    execAll (c :: cs) (s.writeSt b).complete = execAll cs (s.writeSt (f b)).complete :=
  execAll_cons (h (s.writeSt b).complete) cs

variable {s} (hkv : s.kv = true) (r : Fin 11)
include hkv

theorem execAll_ark_cons : execAll (.ark (BitVec.ofNat 4 r.val) :: cs) (s.writeSt b).complete =
    execAll cs (s.writeSt (addRoundKey b s.rk[r])).complete :=
  execAll_cons (exec_ark_of_schedule (s := (s.writeSt b).complete) r hkv) cs

theorem execAll_encRoundCommands : execAll (encRoundCommands r.val ++ cs) (s.writeSt b).complete =
    execAll cs (s.writeSt (encryptRound b s.rk[r])).complete := by
  simp only [encRoundCommands, List.cons_append, List.nil_append]
  rw [execAll_transform_cons s b _ subBytes (exec_eq .subb), execAll_transform_cons s _ _ shiftRows (exec_eq .shrow),
    execAll_transform_cons s _ _ mixColumns (exec_eq .mixc), execAll_ark_cons _ _ hkv, encryptRound]

theorem execAll_decRoundCommands : execAll (decRoundCommands r.val ++ cs) (s.writeSt b).complete =
    execAll cs (s.writeSt (decryptRound b s.rk[r])).complete := by
  simp only [decRoundCommands, List.cons_append, List.nil_append]
  rw [execAll_transform_cons s b _ invShiftRows (exec_eq .ishrow),
    execAll_transform_cons s _ _ invSubBytes (exec_eq .isubb), execAll_ark_cons _ _ hkv,
    execAll_transform_cons s _ _ invMixColumns (exec_eq .imixc), decryptRound]

end

/-- Rounds given by their primitive commands, one after another. -/
theorem execAll_rounds {s : State} {commands : Fin 11 → List Instr} {round : Block → Block → Block}
    (h : ∀ b cs r, execAll (commands r ++ cs) (s.writeSt b).complete =
      execAll cs (s.writeSt (round b s.rk[r])).complete)
    (rs : List (Fin 11)) (b : Block) (cs : List Instr) :
    execAll (rs.flatMap commands ++ cs) (s.writeSt b).complete =
      execAll cs (s.writeSt (rs.foldl (fun x r => round x s.rk[r]) b)).complete := by
  induction rs generalizing b with
  | nil => rfl
  | cons r rs ih => rw [List.flatMap_cons, List.append_assoc, h, ih, List.foldl_cons]

/-- The middle rounds of ENC's sequence are those of Encrypt. -/
theorem encCommands_eq : encCommands = .ark (BitVec.ofNat 4 (0 : Fin 11).val) ::
    ((middleRounds.flatMap fun r => encRoundCommands r.val) ++
      [.subb, .shrow, .ark (BitVec.ofNat 4 (10 : Fin 11).val)]) :=
  rfl

/-- The middle rounds of DEC's sequence are those of Decrypt. -/
theorem decCommands_eq : decCommands = .ark (BitVec.ofNat 4 (10 : Fin 11).val) ::
    ((middleRounds.reverse.flatMap fun r => decRoundCommands r.val) ++
      [.ishrow, .isubb, .ark (BitVec.ofNat 4 (0 : Fin 11).val)]) :=
  rfl

section
variable {s : State} (hkv : s.kv = true)
include hkv

theorem execAll_encCommands : execAll encCommands s = .next (s.writeSt (encrypt s.st s.rk)).complete := by
  rw [encCommands_eq, execAll_cons (exec_ark_of_schedule 0 hkv),
    execAll_rounds fun b cs r => execAll_encRoundCommands b cs hkv r,
    execAll_transform_cons s _ _ subBytes (exec_eq .subb), execAll_transform_cons s _ _ shiftRows (exec_eq .shrow),
    execAll_ark_cons _ _ hkv, execAll, encrypt, encryptFinal]
  rfl

theorem execAll_decCommands : execAll decCommands s = .next (s.writeSt (decrypt s.st s.rk)).complete := by
  rw [decCommands_eq, execAll_cons (exec_ark_of_schedule 10 hkv),
    execAll_rounds fun b cs r => execAll_decRoundCommands b cs hkv r,
    execAll_transform_cons s _ _ invShiftRows (exec_eq .ishrow),
    execAll_transform_cons s _ _ invSubBytes (exec_eq .isubb), execAll_ark_cons _ _ hkv, execAll, decrypt, decryptFinal]
  rfl

end

/-- In an idle engine only MODE is left for the end of a command to set. -/
theorem setSequencer_idle (s : State) (hp : s.phase = .idle) (hr : s.rnd = 0) (md : Mode) :
    s.setSequencer .idle md 0 = { s with mode := md } := by
  rw [State.setSequencer, hp, hr]

/-- Settles O36: both sides write the same block, and the sequencer is idle before and after. -/
theorem cipherIsItsPrimitiveCommands : Obligations.CipherIsItsPrimitiveCommands := by
  refine ⟨fun s t hkv hp hr ht => ?_, fun s t hkv hp hr ht => ?_,
    fun s hkv => ⟨⟨_, execAll_encCommands hkv⟩, _, execAll_decCommands hkv⟩⟩
  · obtain rfl : _ = t := Host.Outcome.next.inj ((execAll_encCommands hkv).symm.trans ht)
    rw [exec_enc_of_schedule s hkv, setSequencer_idle (s.writeSt (encrypt s.st s.rk)) hp hr]
    rfl
  · obtain rfl : _ = t := Host.Outcome.next.inj ((execAll_decCommands hkv).symm.trans ht)
    rw [exec_dec_of_schedule s hkv, setSequencer_idle (s.writeSt (decrypt s.st s.rk)) hp hr]
    rfl

end Sys2Proof.Proofs
end

section
/-! The ring Z_Q[x]/(x^256 + 1) (44_poly_ring.md R170 to R174): a polynomial register's class modulo x^256 + 1. A
register in range is known by its class, and PolyAdd and PolyMul are the sum and the product of classes, so the laws of
PolyMul are those of a commutative ring. -/

namespace Sys2Proof.Proofs

open Machine Claims Laws Polynomial

section
variable (f g : Poly)

/-! ## Registers as polynomials -/

theorem coeff_ringPoly (n : Nat) : (ringPoly f).coeff n = (coeffAt f n : ZMod 3329) := by
  rw [ringPoly, finsetSum_coeff, Finset.sum_congr rfl fun (j : Fin 256) _ => coeff_C_mul_X_pow _ j.val n]
  by_cases h : n < 256
  · rw [Finset.sum_eq_single ⟨n, h⟩ (fun j _ hj => if_neg fun e => hj (Fin.ext e.symm)) (by simp), if_pos rfl,
      coeffAt_lt f h, Fin.getElem_fin]
  · rw [Finset.sum_eq_zero fun j _ => if_neg (by omega), coeffAt_ge f (by omega), Nat.cast_zero]

theorem coeff_ringPoly_lt {n : Nat} (h : n < 256) : (ringPoly f).coeff n = (f[n].toNat : ZMod 3329) := by
  rw [coeff_ringPoly, coeffAt_lt f h]

theorem coeff_ringPoly_ge {n : Nat} (h : 256 ≤ n) : (ringPoly f).coeff n = 0 := by
  rw [coeff_ringPoly, coeffAt_ge f h, Nat.cast_zero]

theorem degree_ringPoly_lt : (ringPoly f).degree < 256 :=
  (degree_lt_iff_coeff_zero _ 256).mpr fun _ h => coeff_ringPoly_ge f h

/-- A polynomial given by its coefficients below 256 is a register's. -/
theorem ringPoly_eq_of_coeff {p : (ZMod 3329)[X]}
    (hlow : ∀ (n : Nat) (h : n < 256), (f[n].toNat : ZMod 3329) = p.coeff n)
    (hhigh : ∀ n, 256 ≤ n → p.coeff n = 0) : ringPoly f = p := by
  ext n
  by_cases h : n < 256
  · rw [coeff_ringPoly_lt f h, hlow n h]
  · rw [coeff_ringPoly_ge f (by omega), hhigh n (by omega)]

theorem ringPoly_polyAdd : ringPoly (polyAdd f g) = ringPoly f + ringPoly g :=
  ringPoly_eq_of_coeff _
    (fun n h => by
      rw [polyAdd_getElem f g n h, coeffOfInt_cast, coeff_add, coeff_ringPoly_lt f h, coeff_ringPoly_lt g h]
      push_cast
      rfl)
    fun n h => by rw [coeff_add, coeff_ringPoly_ge f h, coeff_ringPoly_ge g h, add_zero]

theorem ringPoly_polySub : ringPoly (polySub f g) = ringPoly f - ringPoly g :=
  ringPoly_eq_of_coeff _
    (fun n h => by
      rw [polySub_getElem f g n h, coeffOfInt_cast, coeff_sub, coeff_ringPoly_lt f h, coeff_ringPoly_lt g h]
      push_cast
      rfl)
    fun n h => by rw [coeff_sub, coeff_ringPoly_ge f h, coeff_ringPoly_ge g h, sub_zero]

/-- The power x^i as a register. -/
theorem ringPoly_set_one {i : Nat} (hi : i < 256) : ringPoly (zeroPoly.set i 1#12 hi) = X ^ i :=
  ringPoly_eq_of_coeff _
    (fun n h => by
      rw [coeff_X_pow, Vector.getElem_set, Vector.getElem_replicate]
      by_cases e : i = n <;> simp [e, eq_comm])
    fun n h => by rw [coeff_X_pow, if_neg (by omega)]

/-! ## The product's coefficients -/

/-- The convolution of 44_poly_ring.md R174 is the product before reduction. -/
theorem coeff_ringPoly_mul (t : Nat) : (ringPoly f * ringPoly g).coeff t = (convolution f g t : ZMod 3329) := by
  rw [coeff_mul, Finset.Nat.sum_antidiagonal_eq_sum_range_succ fun i j => (ringPoly f).coeff i * (ringPoly g).coeff j,
    convolution_eq, Nat.cast_sum]
  exact Finset.sum_congr rfl fun i _ => by rw [coeff_ringPoly, coeff_ringPoly, Nat.cast_mul]

/-- The same coefficient as the sum over both indices. -/
theorem coeff_ringPoly_mul_eq_sum (t : Nat) : (ringPoly f * ringPoly g).coeff t =
    ∑ i : Fin 256, ∑ j : Fin 256,
      if i.val + j.val = t then ((f[i].toNat * g[j].toNat : Nat) : ZMod 3329) else 0 := by
  simp only [ringPoly, Finset.sum_mul_sum, finsetSum_coeff, C_mul_X_pow_eq_monomial, monomial_mul_monomial,
    coeff_monomial, Nat.cast_mul]

theorem coeff_ringPoly_mul_ge {t : Nat} (h : 511 ≤ t) : (ringPoly f * ringPoly g).coeff t = 0 := by
  rw [coeff_ringPoly_mul_eq_sum]
  exact Finset.sum_eq_zero fun i _ => Finset.sum_eq_zero fun j _ => if_neg (by omega)

/-- Coefficient k of PolyMul: x^256 is −1 (44_poly_ring.md R170, R174). -/
theorem polyMul_getElem_cast {k : Nat} (h : k < 256) : ((polyMul f g)[k].toNat : ZMod 3329) =
    (ringPoly f * ringPoly g).coeff k - (ringPoly f * ringPoly g).coeff (k + 256) := by
  rw [polyMul_getElem f g k h, coeffOfInt_cast, coeff_ringPoly_mul, coeff_ringPoly_mul]
  push_cast
  rfl

/-! ## Reduction modulo x^256 + 1 -/

/-- The modulus of the ring (44_poly_ring.md R170). -/
noncomputable def ringModulus : (ZMod 3329)[X] := X ^ 256 + 1

theorem ringModulus_eq : ringModulus = X ^ 256 + C 1 := by
  unfold ringModulus
  rw [C_1]

theorem monic_ringModulus : ringModulus.Monic := by
  rw [ringModulus_eq]
  exact monic_X_pow_add_C 1 (by decide)

theorem degree_ringModulus : ringModulus.degree = 256 := by
  have : Fact (1 < 3329) := ⟨by decide⟩
  rw [ringModulus_eq]
  exact degree_X_pow_add_C (by decide) 1

/-- The part of a polynomial from x^m up. -/
theorem exists_coeff_eq_coeff_add (p : (ZMod 3329)[X]) (m : Nat) :
    ∃ q : (ZMod 3329)[X], ∀ n, q.coeff n = p.coeff (n + m) := by
  induction m with
  | zero => exact ⟨p, fun _ => rfl⟩
  | succ m ih =>
    obtain ⟨q, hq⟩ := ih
    exact ⟨q.divX, fun n => by rw [coeff_divX, hq, Nat.add_right_comm, Nat.add_assoc]⟩

/-- The reduction takes off a multiple of the modulus: the one by the part from x^256 up. -/
theorem ringModulus_dvd_mul_sub_polyMul : ringModulus ∣ ringPoly f * ringPoly g - ringPoly (polyMul f g) := by
  obtain ⟨folded, hfolded⟩ := exists_coeff_eq_coeff_add (ringPoly f * ringPoly g) 256
  refine ⟨folded, ?_⟩
  ext n
  rw [ringModulus_eq, C_1, add_mul, one_mul, coeff_sub, coeff_add, coeff_X_pow_mul', hfolded, hfolded]
  by_cases h : n < 256
  · rw [coeff_ringPoly_lt _ h, polyMul_getElem_cast f g h, if_neg (by omega), zero_add, sub_sub_cancel]
  · rw [coeff_ringPoly_ge _ (by omega), if_pos (by omega), Nat.sub_add_cancel (by omega),
      coeff_ringPoly_mul_ge f g (t := n + 256) (by omega), sub_zero, add_zero]

/-- A register as an element of Z_Q[x]/(x^256 + 1). -/
noncomputable def ringClass : AdjoinRoot ringModulus := AdjoinRoot.mk ringModulus (ringPoly f)

@[simp] theorem ringClass_polyAdd : ringClass (polyAdd f g) = ringClass f + ringClass g := by
  rw [ringClass, ringPoly_polyAdd, map_add, ringClass, ringClass]

@[simp] theorem ringClass_polyMul : ringClass (polyMul f g) = ringClass f * ringClass g := by
  rw [ringClass, ringClass, ringClass, ← map_mul, eq_comm, AdjoinRoot.mk_eq_mk]
  exact ringModulus_dvd_mul_sub_polyMul f g

end

/-- Two canonical representatives of one class are equal (44_poly_ring.md R171). -/
theorem eq_of_natCast_eq {m n : Nat} (hm : m < 3329) (hn : n < 3329) (h : (m : ZMod 3329) = n) : m = n :=
  CharP.natCast_injOn_Iio (ZMod 3329) 3329 hm hn h

section
variable {f g : Poly} (hf : PolyInRange f) (hg : PolyInRange g)
include hf hg

theorem eq_of_ringPoly_eq (h : ringPoly f = ringPoly g) : f = g :=
  Vector.ext fun n hn => BitVec.eq_of_toNat_eq (eq_of_natCast_eq (hf ⟨n, hn⟩) (hg ⟨n, hn⟩) (by
    rw [← coeff_ringPoly_lt f hn, h, coeff_ringPoly_lt g hn]))

/-- A register's polynomial is reduced already: its degree is below the modulus's. -/
theorem eq_of_ringClass_eq (h : ringClass f = ringClass g) : f = g := by
  refine eq_of_ringPoly_eq hf hg (sub_eq_zero.mp (by_contra fun hne => ?_))
  have hdegree : (ringPoly f - ringPoly g).degree < ringModulus.degree := by
    rw [← ringPoly_polySub, degree_ringModulus]
    exact degree_ringPoly_lt _
  refine AdjoinRoot.mk_ne_zero_of_degree_lt monic_ringModulus hne hdegree ?_
  rw [map_sub, sub_eq_zero]
  exact h

end

/-! ## The laws -/

theorem polyMul_comm (f g : Poly) : polyMul f g = polyMul g f :=
  eq_of_ringClass_eq (polyMul_inRange _ _) (polyMul_inRange _ _) (by simp [mul_comm])

theorem polyMul_assoc (f g h : Poly) : polyMul (polyMul f g) h = polyMul f (polyMul g h) :=
  eq_of_ringClass_eq (polyMul_inRange _ _) (polyMul_inRange _ _) (by simp [mul_assoc])

theorem polyMul_polyAdd (f g h : Poly) : polyMul f (polyAdd g h) = polyAdd (polyMul f g) (polyMul f h) :=
  eq_of_ringClass_eq (polyMul_inRange _ _) (polyAdd_inRange _ _) (by simp [mul_add])

section
variable {f : Poly} (hf : PolyInRange f)
include hf

/-- Subtraction undoes addition (44_poly_ring.md R173). -/
theorem polySub_polyAdd (g : Poly) : polySub (polyAdd f g) g = f :=
  eq_of_ringPoly_eq (polySub_inRange _ _) hf (by rw [ringPoly_polySub, ringPoly_polyAdd, add_sub_cancel_right])

theorem polyMul_one : polyMul f (zeroPoly.set 0 1#12) = f := by
  have hone : ringClass (zeroPoly.set 0 1#12) = 1 := by
    rw [ringClass, ringPoly_set_one, pow_zero, map_one]
  exact eq_of_ringClass_eq (polyMul_inRange _ _) hf (by rw [ringClass_polyMul, hone, mul_one])

/-- The coefficient that wraps comes back with its sign changed (44_poly_ring.md R174). -/
theorem polyMul_x_getElem_zero : (polyMul f (zeroPoly.set 1 1#12))[0].toNat = (3329 - f[255].toNat) % 3329 := by
  have hwrap : f[255].toNat < 3329 := hf 255
  refine eq_of_natCast_eq (polyMul_inRange f _ 0) (Nat.mod_lt _ (by decide)) ?_
  rw [polyMul_getElem_cast, ringPoly_set_one, pow_one, coeff_mul_X_zero, coeff_mul_X,
    coeff_ringPoly_lt f (by decide), ZMod.natCast_mod, Nat.cast_sub hwrap.le, ZMod.natCast_self]

/-- Every other coefficient moves up one place. -/
theorem polyMul_x_getElem_succ {k : Nat} (h : k + 1 < 256) :
    (polyMul f (zeroPoly.set 1 1#12))[k + 1].toNat = f[k].toNat := by
  refine eq_of_natCast_eq (polyMul_inRange f _ ⟨k + 1, h⟩) (hf ⟨k, by omega⟩) ?_
  rw [polyMul_getElem_cast, ringPoly_set_one, pow_one, Nat.add_right_comm,
    coeff_mul_X, coeff_mul_X, coeff_ringPoly_lt f (by omega), coeff_ringPoly_ge f (by omega), sub_zero]

end

/-- Settles O41: the class of a register is taken coefficient by coefficient, and reduced by what was folded back. -/
theorem ringOperationsAreTheRings : Obligations.RingOperationsAreTheRings := by
  intro f g
  have hdvd := ringModulus_dvd_mul_sub_polyMul f g
  unfold ringModulus at hdvd
  exact ⟨ringPoly_polyAdd f g, ringPoly_polySub f g, hdvd, polyAdd_inRange f g, polySub_inRange f g,
    polyMul_inRange f g⟩

/-- Settles O42: the laws are those of the ring of classes; multiplying by x is read off the coefficients. -/
theorem mulLaws : Obligations.MulLaws := by
  refine ⟨polyMul_comm, polyMul_assoc, polyMul_polyAdd, fun f hf => polyMul_one hf, fun f hf k => ?_⟩
  obtain ⟨_ | k, hk⟩ := k
  · exact polyMul_x_getElem_zero hf
  · exact (polyMul_x_getElem_succ hf hk).trans (coeffAt_lt f (by omega)).symm

end Sys2Proof.Proofs
end

section
/-! The commands of the ring (44_poly_ring.md R172 to R177): each is its one write of a polynomial register, or of MP
and DMM, made from the registers as they stood before. -/

namespace Sys2Proof.Proofs

open Machine Laws

/-- The canonical representative of a natural number is its remainder (44_poly_ring.md R171). -/
theorem coeffOfInt_natCast (n : Nat) : coeffOfInt n = BitVec.ofNat 12 (n % 3329) := rfl

/-- Twice Q keeps the difference of two 12-bit coefficients from going below 0. -/
theorem coeffOfInt_sub (a b : Coeff) :
    coeffOfInt ((a.toNat : Int) - b.toNat) = BitVec.ofNat 12 ((a.toNat + 6658 - b.toNat) % 3329) := by
  have hb := b.isLt
  rw [← coeffOfInt_natCast]
  refine BitVec.eq_of_toNat_eq ?_
  have hdiff := coeffOfInt_toNat ((a.toNat : Int) - b.toNat)
  have hnat := coeffOfInt_toNat ((a.toNat + 6658 - b.toNat : Nat) : Int)
  omega

theorem polyAdd_eq_ofFn (f g : Poly) :
    polyAdd f g = Vector.ofFn fun j : Fin 256 => BitVec.ofNat 12 ((f[j].toNat + g[j].toNat) % 3329) := rfl

theorem polySub_eq_ofFn (f g : Poly) :
    polySub f g = Vector.ofFn fun j : Fin 256 => BitVec.ofNat 12 ((f[j].toNat + 6658 - g[j].toNat) % 3329) :=
  congrArg Vector.ofFn (funext fun _ => coeffOfInt_sub _ _)

/-- Settles O39: each command is its one write, whose coefficients are those of `polyAdd` and `polySub`. -/
theorem addSubCommands : Obligations.AddSubCommands := by
  refine ⟨fun s d a b => ⟨?_, ?_⟩, fun _ g hf => polySub_polyAdd hf g⟩
  · rw [exec_eq, ← polyAdd_eq_ofFn]
    rfl
  · rw [exec_eq, ← polySub_eq_ofFn]
    rfl

/-- Settles O40: the two sums are the coefficients k and k + 256 of the product before reduction. -/
theorem mulCommand : Obligations.MulCommand := by
  refine fun s d a b =>
    ⟨_, exec_eq (.pmul d a b) s, rfl, fun e he => State.writePoly_other _ _ _ _ he.symm, fun k => ?_⟩
  have hwritten : (commandResult (.pmul d a b) s).p[d] = polyMul s.p[a] s.p[b] := State.writePoly_same _ _ _
  rw [hwritten, ← coeff_ringPoly_mul_eq_sum, ← coeff_ringPoly_mul_eq_sum]
  exact ⟨polyMul_inRange _ _ k, polyMul_getElem_cast _ _ k.isLt⟩

/-! ## Messages -/

theorem encodeMessage_getElem_toNat {one : Nat} (hone : one < 3329) (m : Bytes32) (j : Fin 256) :
    (encodeMessage one m)[j].toNat = if m[j.val / 8].getLsbD (j.val % 8) then one else 0 := by
  have hmod : one % 2 ^ 12 = one := Nat.mod_eq_of_lt (by omega)
  rw [Fin.getElem_fin, encodeMessage_getElem _ _ _ j.isLt, apply_ite BitVec.toNat, BitVec.toNat_ofNat, hmod]
  rfl

/-- A threshold below the coefficient of a 1 bit tells the two coefficients apart. -/
theorem decodeMessage_encodeMessage {t one : Nat} (ht : t < one) (hone : one < 3329) (m : Bytes32) :
    decodeMessage t (encodeMessage one m) = m := by
  refine message_ext _ _ fun j => ?_
  rw [decodeMessage_bit, encodeMessage_getElem_toNat hone]
  cases m[j.val / 8].getLsbD (j.val % 8) <;> simp [ht]

/-- A decode writes MP and DMM and nothing else before the end of its command; DMM compares MP with M
(44_poly_ring.md R176). -/
theorem eq_of_eq_complete_writeDecoded {s t : State} {x : Bytes32} (h : t = (s.writeDecoded x).complete) :
    t = { s with mp := t.mp, dmm := t.dmm, res := .ok, done := true } ∧ (t.dmm = true ↔ t.mp ≠ s.m) ∧ t.mp = x := by
  subst h
  exact ⟨rfl, decide_eq_true_iff, rfl⟩

/-- Settles O43: PENC and PDEC are their writes; every build's DEC_T is below its ENC_ONE. -/
theorem messageCommands : Obligations.MessageCommands := by
  refine ⟨fun s d => ⟨_, exec_eq (.penc d) s, rfl, fun e he => State.writePoly_other _ _ _ _ he.symm, fun j => ?_⟩,
    fun s a => ?_, decodeMessage_encodeMessage decT_lt_encOne encOne_lt⟩
  · have hwritten : (commandResult (.penc d) s).p[d] = encodeMessage Config.encOne s.m := State.writePoly_same _ _ _
    rw [hwritten, encodeMessage_getElem_toNat encOne_lt]
  · obtain ⟨hframe, hdmm, hmp⟩ := eq_of_eq_complete_writeDecoded (t := commandResult (.pdec a) s) rfl
    exact ⟨_, exec_eq (.pdec a) s, hframe, hdmm, fun j => by rw [hmp, decodeMessage_bit]⟩

end Sys2Proof.Proofs
end

section
/-! The samplers (45_sampler.md): the noise value of a word (R192), what PSAMPU, PSAMPN and MSAMP make of the words
drawn (R194 to R196), and how many words each command draws (R197). -/

namespace Sys2Proof.Proofs

open Machine Laws Claims

/-! ## The noise value -/

/-- In a non-decreasing table the entries at or below t come first, so the magnitude, their number, tells them from
the others by index. -/
theorem lt_noiseMagnitude_iff {cdt : List Nat} (hmono : cdt.Pairwise (· ≤ ·)) {i : Nat} (hi : i < cdt.length)
    {t : Nat} : i < noiseMagnitude cdt t ↔ cdt[i] ≤ t := by
  induction cdt generalizing i with
  | nil => simp at hi
  | cons entry rest ih =>
    obtain ⟨hfirst, hrest⟩ := List.pairwise_cons.mp hmono
    by_cases hle : entry ≤ t
    · have hcount : noiseMagnitude (entry :: rest) t = noiseMagnitude rest t + 1 :=
        List.countP_cons_of_pos (decide_eq_true hle)
      rw [hcount]
      cases i with
      | zero => simp [hle]
      | succ i => simpa using ih hrest (Nat.lt_of_succ_lt_succ hi)
    · have habove : ∀ x ∈ entry :: rest, ¬ x ≤ t := by
        rintro x (_ | ⟨_, hx⟩)
        · exact hle
        · exact fun hxt => hle ((hfirst x hx).trans hxt)
      have hcount : noiseMagnitude (entry :: rest) t = 0 := by
        simpa [noiseMagnitude, List.countP_eq_zero] using habove
      simpa [hcount] using habove _ (List.getElem_mem hi)

/-- A magnitude of at most 16 and its negative modulo Q fit a coefficient. -/
theorem sampleNoise_toNat {cdt : List Nat} (hlen : cdt.length ≤ 16) (w : Word) {k : Nat}
    (hk : noiseMagnitude cdt (w.toNat % 2 ^ 16) = k) :
    (sampleNoise cdt w).toNat = if k = 0 ∨ w.getLsbD 16 = false then k else 3329 - k := by
  have hle := noiseMagnitude_le cdt (w.toNat % 2 ^ 16)
  simp only [sampleNoise, hk, ringQ]
  split <;> rw [BitVec.toNat_ofNat, Nat.mod_eq_of_lt (by omega)]

/-- Settles O45: k is the magnitude at bits 15:0; the table's order turns the count into the least index. -/
theorem noiseValue : Obligations.NoiseValue := by
  intro cdt w hlen hmono
  have hbits : (w.extractLsb' 0 16).toNat = w.toNat % 2 ^ 16 := by simp
  have hle := noiseMagnitude_le cdt (w.toNat % 2 ^ 16)
  rw [hbits]
  refine ⟨_, hle, List.countP_eq_length_filter, fun i hi => ?_, fun hk => ?_, sampleNoise_toNat hlen w rfl⟩
  · rw [List.getD_eq_getElem _ _ (hi.trans_le hle)]
    exact (lt_noiseMagnitude_iff hmono _).mp hi
  · rw [List.getD_eq_getElem _ _ hk]
    exact not_le.mp (mt (lt_noiseMagnitude_iff hmono hk).mpr (lt_irrefl _))

/-! ## The sampler commands -/

/-- Word i of the sampled M is the word drawn for it (45_sampler.md R196). -/
theorem loadWord_sampleMessage (s : State) (i : Fin 8) :
    loadWord s.sampleMessage.m.toList (4 * i.val) = s.portWord i.val := by
  have hbyte (j : Nat) (hj : j < 4) :
      s.sampleMessage.m.toList.getD (4 * i.val + j) 0 = wordByte (s.portWord i.val) j := by
    have hword : (4 * i.val + j) / 4 = i.val := by omega
    have hplace : (4 * i.val + j) % 4 = j := by omega
    rw [toList_getD _ (by omega)]
    simp [State.sampleMessage, hword, hplace]
  have hfirst := hbyte 0 (by decide)
  rw [Nat.add_zero] at hfirst
  rw [loadWord, hfirst, hbyte 1 (by decide), hbyte 2 (by decide), hbyte 3 (by decide), wordOfBytes_wordByte]

/-- The frame of a write of M with its draw of n words, at the end of the command. -/
theorem eq_of_eq_complete_writeMessage {s t : State} {x : Bytes32} {n : Nat}
    (h : t = ((s.writeMessage x).consumeWords n).complete) :
    t = { s with m := t.m, rndDrawn := s.rndDrawn + n, rndSupplied := s.rndSupplied.drop n, res := .ok,
                 done := true } := by
  subst h
  rfl

/-- Settles O44: PSAMPU and PSAMPN are their one write and the draw; M read back by words is the words drawn. -/
theorem samplerCommands : Obligations.SamplerCommands := by
  refine ⟨fun s d => ⟨exec_eq (.psampu d) s, exec_eq (.psampn d) s⟩, fun s =>
    ⟨s.sampleMessage.complete, exec_eq .msamp s, eq_of_eq_complete_writeMessage rfl, fun i => ?_⟩⟩
  rw [windowWord_m]
  exact congrArg some (loadWord_sampleMessage s i)

/-! ## Words drawn -/

/-- A command that does not write the port draws no word. -/
theorem wordsDrawn_eq_zero {i : Instr} (h : .port ∉ writtenBy i) : wordsDrawn i = 0 := by
  cases i with
  | psampu | psampn | msamp | keygen | encaps => simp [writtenBy] at h
  | _ => rfl

/-- ARK, ENC and DEC, the commands that can raise an error, draw no word. -/
theorem wordsDrawn_of_commandError {i : Instr} {s : State} {c : ResultCode} (h : commandError i s = some c) :
    wordsDrawn i = 0 := by
  cases i with
  | ark | enc | dec => rfl
  | _ => nomatch h

section
variable {s t : State}

theorem portWord_eq_of_read_port (h : RegGroup.port.read t = RegGroup.port.read s) (k : Nat) :
    t.portWord k = s.portWord k := by
  obtain ⟨hdrawn, hsupplied⟩ := Prod.mk.inj h
  rw [State.portWord, State.portWord, hdrawn, hsupplied]

@[simp] theorem samplePoly_rndDrawn (d : PReg) (f : Word → Coeff) :
    (s.samplePoly d f).rndDrawn = s.rndDrawn + 256 := rfl

@[simp] theorem samplePoly_rndSupplied (d : PReg) (f : Word → Coeff) :
    (s.samplePoly d f).rndSupplied = s.rndSupplied.drop 256 := rfl

@[simp] theorem sampleMessage_rndDrawn : s.sampleMessage.rndDrawn = s.rndDrawn + 8 := by
  simp [State.sampleMessage]

@[simp] theorem sampleMessage_rndSupplied : s.sampleMessage.rndSupplied = s.rndSupplied.drop 8 := by
  simp [State.sampleMessage]

/-- KEYGEN draws for A, s and e (46_kem.md R213). -/
theorem read_port_keygen : RegGroup.port.read s.keygen = RegGroup.port.read (s.consumeWords 768) := by
  simp [RegGroup.read, State.keygen, State.samplePolyUniform, State.samplePolyNoise]

/-- ENCAPS draws for r, e1, e2 and M (46_kem.md R214). -/
theorem read_port_encaps : RegGroup.port.read s.encaps = RegGroup.port.read (s.consumeWords 776) := by
  have hframe : RegGroup.port.read s.encaps = RegGroup.port.read
      (((s.samplePolyUniform 4).samplePolyNoise 5).samplePolyNoise 6).sampleMessage :=
    (read_hashSecret (sel := .encapsulation) (by simp) 8 9).trans (by simp)
  rw [hframe]
  simp [RegGroup.read, State.samplePolyUniform, State.samplePolyNoise]

/-- The register writes of a command advance the port by the command's count. -/
theorem read_port_commandEffect (i : Instr) (s : State) :
    RegGroup.port.read (commandEffect i s) = RegGroup.port.read (s.consumeWords (wordsDrawn i)) := by
  by_cases hport : .port ∈ writtenBy i
  · cases i with
    | psampu | psampn => rfl
    | msamp => simp [RegGroup.read, commandEffect, wordsDrawn]
    | keygen => exact read_port_keygen
    | encaps => exact read_port_encaps
    | _ => simp [writtenBy] at hport
  · rw [wordsDrawn_eq_zero hport]
    exact read_commandEffect hport

/-- Every command, completed or not, advances the port by its count. -/
theorem read_port_commandResult (i : Instr) (s : State) :
    RegGroup.port.read (commandResult i s) = RegGroup.port.read (s.consumeWords (wordsDrawn i)) := by
  cases h : commandError i s with
  | none => simpa [commandResult, h] using read_port_commandEffect i s
  | some c => simp [commandResult, h, wordsDrawn_of_commandError h, State.consumeWords, RegGroup.read]

end

/-- Settles O46: the port stands as after its count of draws, and the commands that can end in an error draw none. -/
theorem wordsConsumed : Obligations.WordsConsumed := by
  intro i s t ht
  rw [exec_eq] at ht
  cases ht
  have hport := read_port_commandResult i s
  obtain ⟨hdrawn, hsupplied⟩ := Prod.mk.inj hport
  refine ⟨hdrawn, hsupplied, fun k => ?_, fun hres => ?_⟩
  · rw [portWord_eq_of_read_port hport, portWord_consumeWords]
  · cases h : commandError i s with
    | none => simp [commandResult, h] at hres
    | some c => exact wordsDrawn_of_commandError h

end Sys2Proof.Proofs
end

section
/-! Sequences of commands that raise no error, and the polynomial registers and the port as the state operations leave
them. -/

namespace Sys2Proof.Proofs

open Machine Laws Claims

section
variable (s : State)

/-! ## The end of a command before a state operation -/

@[simp] theorem writePoly_complete (d : PReg) (f : Poly) : s.complete.writePoly d f = (s.writePoly d f).complete := rfl

@[simp] theorem writeMessage_complete (x : Bytes32) : s.complete.writeMessage x = (s.writeMessage x).complete := rfl

@[simp] theorem writeDecoded_complete (x : Bytes32) : s.complete.writeDecoded x = (s.writeDecoded x).complete := rfl

@[simp] theorem writeSecret_complete (sel : Side) (x : Bytes32) :
    s.complete.writeSecret sel x = (s.writeSecret sel x).complete := by cases sel <;> rfl

@[simp] theorem consumeWords_complete (n : Nat) : s.complete.consumeWords n = (s.consumeWords n).complete := rfl

@[simp] theorem portWord_complete (k : Nat) : s.complete.portWord k = s.portWord k := rfl

@[simp] theorem message_complete (sel : Side) : s.complete.message sel = s.message sel := by cases sel <;> rfl

@[simp] theorem secret_complete (sel : Side) : s.complete.secret sel = s.secret sel := by cases sel <;> rfl

@[simp] theorem samplePoly_complete (d : PReg) (sample : Word → Coeff) :
    s.complete.samplePoly d sample = (s.samplePoly d sample).complete := by
  simp [State.samplePoly]

@[simp] theorem sampleMessage_complete : s.complete.sampleMessage = s.sampleMessage.complete := by
  simp [State.sampleMessage]

@[simp] theorem encodeInto_complete (d : PReg) : s.complete.encodeInto d = (s.encodeInto d).complete := rfl

@[simp] theorem decodeFrom_complete (a : PReg) : s.complete.decodeFrom a = (s.decodeFrom a).complete := by
  simp [State.decodeFrom]

@[simp] theorem hashSecret_complete (sel : Side) (a b : PReg) :
    s.complete.hashSecret sel a b = (s.hashSecret sel a b).complete := by
  simp [State.hashSecret]

/-- No command's register writes read or write RES and DONE. -/
theorem commandEffect_complete (c : Instr) : commandEffect c s.complete = (commandEffect c s).complete := by
  cases c with
  | psampu | psampn | keygen => simp [commandEffect, State.samplePolyUniform, State.samplePolyNoise, State.keygen]
  | encaps => simp [commandEffect, State.samplePolyUniform, State.samplePolyNoise, State.encaps]
  | msamp | pdec | khash | decaps => simp [commandEffect, State.decaps]
  | ss2key =>
    rw [commandEffect, secret_complete]
    rfl
  | _ => rfl

/-! ## Sequences of commands -/

/-- The register writes of a list of commands, one after another, without their ends. -/
def commandEffects (cs : List Instr) (s : State) : State := cs.foldl (fun t c => commandEffect c t) s

theorem execAll_complete {cs : List Instr} (h : ∀ c ∈ cs, ∀ t, commandError c t = none) :
    execAll cs s.complete = .next (commandEffects cs s).complete := by
  induction cs generalizing s with
  | nil => rfl
  | cons c cs ih =>
    obtain ⟨hfirst, hrest⟩ := List.forall_mem_cons.mp h
    rw [execAll_cons (exec_eq c _), commandResult, hfirst, commandEffect_complete]
    exact ih (commandEffect c s) hrest

/-- A sequence of commands of which none can raise an error leaves their register writes and one end. -/
theorem execAll_eq_commandEffects {c : Instr} {cs : List Instr} (h : ∀ i ∈ c :: cs, ∀ t, commandError i t = none) :
    execAll (c :: cs) s = .next (commandEffects (c :: cs) s).complete := by
  obtain ⟨hfirst, hrest⟩ := List.forall_mem_cons.mp h
  rw [execAll_cons (exec_eq c s), commandResult, hfirst]
  exact execAll_complete (commandEffect c s) hrest

/-! ## Polynomial registers and the port -/

theorem commandEffect_pmul (d a b : PReg) :
    commandEffect (.pmul d a b) s = s.writePoly d (polyMul s.p[a] s.p[b]) := rfl

/-- An addition onto the register just written adds to what was written. -/
theorem commandEffect_padd_writePoly (d : PReg) (f : Poly) {c : PReg} (h : c ≠ d) :
    commandEffect (.padd d d c) (s.writePoly d f) = s.writePoly d (polyAdd f s.p[c]) := by
  rw [commandEffect, State.writePoly_same, State.writePoly_other s d c f h.symm]
  simp [State.writePoly]

@[simp] theorem samplePoly_p (d : PReg) (sample : Word → Coeff) : (s.samplePoly d sample).p =
    s.p.set d.val (Vector.ofFn fun j : Fin 256 => sample (s.portWord j.val)) d.isLt := rfl

@[simp] theorem samplePoly_portWord (d : PReg) (sample : Word → Coeff) (k : Nat) :
    (s.samplePoly d sample).portWord k = s.portWord (256 + k) :=
  portWord_consumeWords (s.writePoly d _) 256 k

@[simp] theorem sampleMessage_p : s.sampleMessage.p = s.p := by simp [State.sampleMessage]

@[simp] theorem encodeInto_p (d : PReg) :
    (s.encodeInto d).p = s.p.set d.val (encodeMessage Config.encOne s.m) d.isLt := rfl

@[simp] theorem encodeInto_m (d : PReg) : (s.encodeInto d).m = s.m := rfl

@[simp] theorem decodeFrom_p (a : PReg) : (s.decodeFrom a).p = s.p := by simp [State.decodeFrom]

@[simp] theorem hashSecret_p (sel : Side) (a b : PReg) : (s.hashSecret sel a b).p = s.p := State.writeSecret_p s sel _

@[simp] theorem hashSecret_m (sel : Side) (a b : PReg) : (s.hashSecret sel a b).m = s.m := State.writeSecret_m s sel _

@[simp] theorem hashSecret_mp (sel : Side) (a b : PReg) : (s.hashSecret sel a b).mp = s.mp :=
  State.writeSecret_mp s sel _

end

end Sys2Proof.Proofs
end

section
/-! KHASH and SS2KEY (46_kem.md R210, R212, R216): the bytes that are hashed, and the block copied to KEY. -/

namespace Sys2Proof.Proofs

open Machine Laws

section
variable (u v : Poly) (m : Bytes32)

theorem hashInput_length : (hashInput u v m).length = 1056 := by
  simp [hashInput, ser_length]

theorem hashInput_take : (hashInput u v m).take 1024 = ser u ++ ser v := by
  rw [hashInput, List.take_left']
  simp [ser_length]

theorem hashInput_getD_first {k : Nat} (h : k < 512) : (hashInput u v m).getD k 0 = (ser u).getD k 0 := by
  rw [hashInput, List.append_assoc, List.getD_append _ _ _ _ (by rwa [ser_length])]

theorem hashInput_getD_second {k : Nat} (h : k < 512) : (hashInput u v m).getD (512 + k) 0 = (ser v).getD k 0 := by
  rw [hashInput, List.append_assoc, List.getD_append_right _ _ _ _ (by rw [ser_length]; omega), ser_length,
    Nat.add_sub_cancel_left, List.getD_append _ _ _ _ (by rwa [ser_length])]

theorem hashInput_getD_message (i : Fin 32) : (hashInput u v m).getD (1024 + i.val) 0 = m[i] := by
  have hlength : (ser u ++ ser v).length = 1024 := by simp [ser_length]
  rw [hashInput, List.getD_append_right _ _ _ _ (by omega), hlength, Nat.add_sub_cancel_left, toList_getD m i.isLt]
  rfl

/-- Coefficient j of the first polynomial stands in bytes 2j and 2j + 1, of the second 512 bytes behind. -/
theorem hashInput_coefficients (j : Fin 256) :
    ((hashInput u v m).getD (2 * j.val) 0).toNat + 256 * ((hashInput u v m).getD (2 * j.val + 1) 0).toNat =
        u[j].toNat ∧
      ((hashInput u v m).getD (512 + 2 * j.val) 0).toNat +
        256 * ((hashInput u v m).getD (512 + 2 * j.val + 1) 0).toNat = v[j].toNat := by
  rw [hashInput_getD_first _ _ _ (by omega), hashInput_getD_first _ _ _ (by omega),
    hashInput_getD_second _ _ _ (by omega), Nat.add_assoc, hashInput_getD_second _ _ _ (by omega)]
  exact ⟨ser_getD u j, ser_getD v j⟩

end

/-- Settles O47: the two inputs are `hashInput` of M and of MP, which differ behind the polynomials only. -/
theorem hashCommand : Obligations.HashCommand := by
  intro s a b
  refine ⟨hashInput s.p[a] s.p[b] s.m, hashInput s.p[a] s.p[b] s.mp, hashInput_length _ _ _, hashInput_length _ _ _,
    hashInput_coefficients _ _ _, fun i => ⟨hashInput_getD_message _ _ _ i, hashInput_getD_message _ _ _ i⟩, ?_,
    exec_eq (.khash .encapsulation a b) s, exec_eq (.khash .decapsulation a b) s⟩
  rw [hashInput_take, hashInput_take]

/-- Settles O52: SS2KEY is its write of KEY, which clears KV. -/
theorem secretToKeyCommand : Obligations.SecretToKeyCommand := fun s =>
  ⟨exec_eq (.ss2key .encapsulation) s, exec_eq (.ss2key .decapsulation) s⟩

end Sys2Proof.Proofs
end

section
/-! KEYGEN, ENCAPS and DECAPS (46_kem.md R213 to R215): each is its sequence of primitive commands, and what it leaves
in the registers it writes; and what decapsulation recovers (R218), computed in the ring Z_Q[x]/(x^256 + 1). -/

namespace Sys2Proof.Proofs

open Machine Laws Claims

/-! ## The sequences of primitive commands -/

section
variable (s : State)

theorem commandEffects_keygen :
    commandEffects [.psampu 0, .psampu 1, .psampn 3, .pmul 2 0 1, .padd 2 2 3] s = s.keygen := by
  simp only [commandEffects, List.foldl_cons, List.foldl_nil]
  rw [commandEffect_pmul, commandEffect_padd_writePoly _ _ _ (by decide)]
  rfl

theorem commandEffects_encaps :
    commandEffects [.psampu 4, .psampn 5, .psampn 6, .msamp, .penc 7, .pmul 8 0 4, .padd 8 8 5, .pmul 9 2 4,
      .padd 9 9 7, .padd 9 9 6, .khash .encapsulation 8 9] s = s.encaps := by
  simp only [commandEffects, List.foldl_cons, List.foldl_nil]
  rw [commandEffect_pmul _ 9, commandEffect_padd_writePoly _ _ _ (by decide),
    commandEffect_padd_writePoly _ _ _ (by decide), commandEffect_pmul, commandEffect_padd_writePoly _ _ _ (by decide)]
  rfl

theorem commandEffects_decaps :
    commandEffects [.pmul 10 8 1, .psub 11 9 10, .pdec 11, .khash .decapsulation 8 9] s = s.decaps := by
  simp only [commandEffects, List.foldl_cons, List.foldl_nil]
  rfl

end

/-! ## What the commands leave unchanged -/

/-- A state is what its groups hold, and RES and DONE. -/
theorem eq_of_read_eq {s t : State} (h : ∀ g : RegGroup, g.read t = g.read s) (hres : t.res = s.res)
    (hdone : t.done = s.done) : t = s := by
  obtain ⟨hmp, hdmm⟩ := Prod.mk.inj (h .decoded)
  obtain ⟨hphase, hmode_rnd⟩ := Prod.mk.inj (h .sequencer)
  obtain ⟨hmode, hrnd⟩ := Prod.mk.inj hmode_rnd
  obtain ⟨hdrawn, hsupplied⟩ := Prod.mk.inj (h .port)
  obtain ⟨hcmd, hinbox_replies⟩ := Prod.mk.inj (h .host)
  obtain ⟨hinbox, hreplies⟩ := Prod.mk.inj hinbox_replies
  cases s
  cases t
  rw [State.mk.injEq]
  exact ⟨h .st, h .key, h .rk, h .kv, h .bres, h .m, hmp, h .sse, h .ssd, hdmm, h .p, hcmd, hdone, hres, h .ferr,
    hphase, hmode, hrnd, hdrawn, hsupplied, hinbox, hreplies⟩

section
variable {s t : State}

theorem res_done_of_eq_complete (ht : t = s.complete) : t.res = .ok ∧ t.done = true := by
  subst ht
  exact ⟨rfl, rfl⟩

theorem read_of_eq_complete_commandEffect {i : Instr} (ht : t = (commandEffect i s).complete) {g : RegGroup}
    (hg : g ∉ writtenBy i) : g.read t = g.read s := by
  rw [ht, read_complete, read_commandEffect hg]

theorem eq_of_eq_complete_keygen (ht : t = s.keygen.complete) : t = { s with
    p := t.p, rndDrawn := s.rndDrawn + 768, rndSupplied := s.rndSupplied.drop 768, res := .ok, done := true } := by
  have hport : RegGroup.port.read t = RegGroup.port.read (s.consumeWords 768) := by
    rw [ht, read_complete, read_port_keygen]
  obtain ⟨hres, hdone⟩ := res_done_of_eq_complete ht
  refine eq_of_read_eq (fun g => ?_) hres hdone
  cases g with
  | p => rfl
  | port => exact hport
  | _ => exact read_of_eq_complete_commandEffect (i := .keygen) ht (by simp [writtenBy])

theorem eq_of_eq_complete_encaps (ht : t = s.encaps.complete) : t = { s with
    p := t.p, m := t.m, sse := t.sse, rndDrawn := s.rndDrawn + 776, rndSupplied := s.rndSupplied.drop 776,
    res := .ok, done := true } := by
  have hport : RegGroup.port.read t = RegGroup.port.read (s.consumeWords 776) := by
    rw [ht, read_complete, read_port_encaps]
  obtain ⟨hres, hdone⟩ := res_done_of_eq_complete ht
  refine eq_of_read_eq (fun g => ?_) hres hdone
  cases g with
  | p | m | sse => rfl
  | port => exact hport
  | _ => exact read_of_eq_complete_commandEffect (i := .encaps) ht (by simp [writtenBy])

theorem eq_of_eq_complete_decaps (ht : t = s.decaps.complete) :
    t = { s with p := t.p, mp := t.mp, dmm := t.dmm, ssd := t.ssd, res := .ok, done := true } := by
  obtain ⟨hres, hdone⟩ := res_done_of_eq_complete ht
  refine eq_of_read_eq (fun g => ?_) hres hdone
  cases g with
  | p | decoded | ssd => rfl
  | _ => exact read_of_eq_complete_commandEffect (i := .decaps) ht (by simp [writtenBy])

end

/-! ## What the commands leave in the registers they write -/

section
variable (s : State)

theorem keygen_samples (j : Fin 256) :
    s.keygen.p[0][j].toNat = (s.portWord j.val).toNat % 3329 ∧
      s.keygen.p[1][j].toNat = (s.portWord (256 + j.val)).toNat % 3329 ∧
      s.keygen.p[3][j] = sampleNoise Config.cdt (s.portWord (512 + j.val)) := by
  simp [State.keygen, State.samplePolyUniform, State.samplePolyNoise, sampleUniform_toNat, ← Nat.add_assoc]

theorem keygen_publicKey : s.keygen.p[2] = polyAdd (polyMul s.keygen.p[0] s.keygen.p[1]) s.keygen.p[3] := by
  simp [State.keygen, State.samplePolyUniform, State.samplePolyNoise]

theorem keygen_other {e : PReg} (h : 3 < e.val) : s.keygen.p[e] = s.p[e] := by
  simp (disch := omega) [State.keygen, State.samplePolyUniform, State.samplePolyNoise, Vector.getElem_set_ne]

theorem encaps_encoded : s.encaps.p[7] = encodeMessage Config.encOne s.encaps.m := by
  simp [State.encaps]

theorem encaps_u : s.encaps.p[8] = polyAdd (polyMul s.p[0] s.encaps.p[4]) s.encaps.p[5] := by
  simp [State.encaps, State.samplePolyUniform, State.samplePolyNoise]

theorem encaps_v :
    s.encaps.p[9] = polyAdd (polyAdd (polyMul s.p[2] s.encaps.p[4]) s.encaps.p[7]) s.encaps.p[6] := by
  simp [State.encaps, State.samplePolyUniform, State.samplePolyNoise]

theorem encaps_secret : s.encaps.sse = Config.hash256 (hashInput s.encaps.p[8] s.encaps.p[9] s.encaps.m) := by
  simp [State.encaps, State.hashSecret, State.message]

theorem encaps_other {e : PReg} (h : e.val < 4 ∨ 9 < e.val) : s.encaps.p[e] = s.p[e] := by
  simp (disch := omega) [State.encaps, State.samplePolyUniform, State.samplePolyNoise, Vector.getElem_set_ne]

theorem decaps_product : s.decaps.p[10] = polyMul s.p[8] s.p[1] := by
  simp [State.decaps]

theorem decaps_difference : s.decaps.p[11] = polySub s.p[9] s.decaps.p[10] := by
  simp [State.decaps]

theorem decaps_decoded : s.decaps.mp = decodeMessage Config.decT s.decaps.p[11] := by
  simp [State.decaps, State.decodeFrom]

theorem decaps_mismatch : s.decaps.dmm = true ↔ s.decaps.mp ≠ s.m := by
  have hdmm : s.decaps.dmm = decodingMismatch s.decaps.mp s.m := by
    simp [State.decaps, State.decodeFrom, State.hashSecret]
  rw [hdmm]
  exact decide_eq_true_iff

theorem decaps_secret : s.decaps.ssd = Config.hash256 (hashInput s.p[8] s.p[9] s.decaps.mp) := by
  simp [State.decaps, State.hashSecret, State.message]

theorem decaps_other {e : PReg} (h10 : e.val ≠ 10) (h11 : e.val ≠ 11) : s.decaps.p[e] = s.p[e] := by
  simp (disch := omega) [State.decaps, Vector.getElem_set_ne]

end

/-- Settles O48: the sum onto P2 adds to the product just written there. -/
theorem keygenIsItsPrimitives : Obligations.KeygenIsItsPrimitives := by
  intro s
  have hexec : exec .keygen s = .next s.keygen.complete := exec_eq .keygen s
  refine ⟨?_, s.keygen.complete, hexec, eq_of_eq_complete_keygen rfl, ?_⟩
  · rw [hexec, execAll_eq_commandEffects s (by simp [commandError]), commandEffects_keygen]
  · rw [State.complete_p]
    exact ⟨keygen_samples s, keygen_publicKey s, fun e => keygen_other s⟩

/-- Settles O49: the sums onto P8 and P9 add to the products just written there. -/
theorem encapsIsItsPrimitives : Obligations.EncapsIsItsPrimitives := by
  intro s
  have hexec : exec .encaps s = .next s.encaps.complete := exec_eq .encaps s
  refine ⟨?_, s.encaps.complete, hexec, eq_of_eq_complete_encaps rfl, ?_⟩
  · rw [hexec, execAll_eq_commandEffects s (by simp [commandError]), commandEffects_encaps]
  · rw [State.complete_p, State.complete_m, State.complete_sse]
    exact ⟨encaps_encoded s, encaps_u s, encaps_v s, encaps_secret s, fun e => encaps_other s⟩

/-- Settles O50: DECAPS is its four writes, and no decode raises an error. -/
theorem decapsIsItsPrimitives : Obligations.DecapsIsItsPrimitives := by
  intro s
  have hexec : exec .decaps s = .next s.decaps.complete := exec_eq .decaps s
  refine ⟨?_, s.decaps.complete, hexec, eq_of_eq_complete_decaps rfl, ?_⟩
  · rw [hexec, execAll_eq_commandEffects s (by simp [commandError]), commandEffects_decaps]
  · rw [State.complete_p, State.complete_mp, State.complete_dmm, State.complete_ssd]
    exact ⟨decaps_product s, decaps_difference s, decaps_decoded s, decaps_mismatch s, decaps_secret s,
      fun e => decaps_other s⟩

/-! ## What decapsulation recovers -/

@[simp] theorem ringClass_polySub (f g : Poly) : ringClass (polySub f g) = ringClass f - ringClass g := by
  rw [ringClass, ringPoly_polySub, map_sub, ringClass, ringClass]

/-- v − u·s for u = A·r + e1 and v = (A·s + e)·r + Encode(m) + e2: the products with A cancel (46_kem.md R218). -/
theorem polySub_ciphertext (a sk e r e1 e2 msg : Poly) :
    polySub (polyAdd (polyAdd (polyMul (polyAdd (polyMul a sk) e) r) msg) e2)
        (polyMul (polyAdd (polyMul a r) e1) sk) =
      polyAdd msg (polySub (polyAdd (polyMul e r) e2) (polyMul e1 sk)) := by
  refine eq_of_ringClass_eq (polySub_inRange _ _) (polyAdd_inRange _ _) ?_
  simp only [ringClass_polySub, ringClass_polyAdd, ringClass_polyMul]
  ring

/-- Two polynomials decode to one message when each coefficient is on the same side of the threshold in both. -/
theorem decodeMessage_eq_iff (t : Nat) (f g : Poly) :
    decodeMessage t f = decodeMessage t g ↔ ∀ j : Fin 256, (t < f[j].toNat ↔ t < g[j].toNat) := by
  constructor
  · intro h j
    rw [← decide_eq_decide, ← decodeMessage_bit, h, decodeMessage_bit]
  · intro h
    refine message_ext _ _ fun j => ?_
    rw [decodeMessage_bit, decodeMessage_bit, decide_eq_decide]
    exact h j

/-- Settles O51: KEYGEN's registers stand until DECAPS, so P11 is v − u·s for the u, v and s made before. -/
theorem decapsulationAlgebra : Obligations.DecapsulationAlgebra := by
  intro s
  obtain ⟨-, k, hk, -, -, hpk, -⟩ := keygenIsItsPrimitives s
  obtain ⟨-, c, hc, -, hencoded, hu, hv, hsse, hcother⟩ := encapsIsItsPrimitives k
  obtain ⟨-, t, ht, hframe, hproduct, hdifference, hmp, hdmm, hssd, htother⟩ := decapsIsItsPrimitives c
  have hm : t.m = c.m := by rw [hframe]
  have hsse' : t.sse = c.sse := by rw [hframe]
  have hrun : execAll [.keygen, .encaps, .decaps] s = .next t := by
    rw [execAll_cons hk, execAll_cons hc, execAll_cons ht, execAll]
  have htkeeps (n : Nat) (hn : n < 10) : t.p[n] = c.p[n] :=
    htother ⟨n, by omega⟩ hn.ne (hn.trans (by decide)).ne
  have hsk : c.p[1] = k.p[1] := hcother 1 (by decide)
  have he : c.p[3] = k.p[3] := hcother 3 (by decide)
  have herror : errorPoly t = polySub (polyAdd (polyMul k.p[3] c.p[4]) c.p[6]) (polyMul c.p[5] k.p[1]) := by
    simp (disch := decide) only [errorPoly, htkeeps, hsk, he]
  have hp11 : t.p[11] = polyAdd (encodeMessage Config.encOne t.m) (errorPoly t) := by
    rw [hdifference, hproduct, hv, hu, hpk, hsk, polySub_ciphertext, hencoded, hm, herror]
  refine ⟨t, hrun, hp11, ?_, ?_, ?_, ?_⟩
  · rw [← decodeMessage_eq_iff, ← hmp, decodeMessage_encodeMessage decT_lt_encOne encOne_lt]
  · rw [hm, hdmm]
  · rw [hsse', hsse, hm, htkeeps 8 (by decide), htkeeps 9 (by decide)]
  · rw [hssd, htkeeps 8 (by decide), htkeeps 9 (by decide)]

end Sys2Proof.Proofs
end

section
/-! The system commands NOP and CLRERR (47_system.md R230, R231), and reset (70_reset_and_hazards.md R270, R271). -/

namespace Sys2Proof.Proofs

open Machine

/-- Settles O21: each command is its register writes and the end of a command; a write of 0 to CMD issues NOP. -/
theorem systemCommands : Obligations.SystemCommands := by
  have hnop : decode 0#32 = .command .nop := by decide
  refine fun s => ⟨exec_eq .nop s, exec_eq .clrerr s, fun rest hidle hin => ?_, hnop, by decide, by decide⟩
  rw [step_of_cmd_write hidle hin, issue_of_command _ hnop, exec_eq]
  rfl

/-- A reset presented takes effect at once, whether or not the sequencer runs (70_reset_and_hazards.md R271). -/
theorem step_of_reset {s : State} {rest : List HostEvent} (hin : s.inbox = .reset :: rest) :
    step s = .next (s.applyReset rest) := by
  simp only [step, advance, hin]

/-- Settles O10: the step is the reset event, which sets every register and leaves the random port where it stands. -/
theorem resetEventClearsEveryRegister : Obligations.ResetEventClearsEveryRegister := by
  intro s rest hin
  have hport : RegGroup.port.read (s.applyReset rest) = RegGroup.port.read s := rfl
  refine ⟨s.applyReset rest, step_of_reset hin, ?_⟩
  simp [portWord_eq_of_read_port hport, State.reset]

end Sys2Proof.Proofs
end

section
/-! The record of errors: a command that ends in an error has done nothing else (60_exceptions.md R245), and FERR keeps
the first error until a reset or CLRERR (R242). -/

namespace Sys2Proof.Proofs

open Machine Laws Claims

/-- Settles O58: a command that leaves RES different from 0 has raised an error, and that is all it has done. -/
theorem errorsArePrecise : Obligations.ErrorsArePrecise := by
  intro i s t ht hres
  rw [exec_eq] at ht
  cases ht
  unfold commandResult at hres ⊢
  cases he : commandError i s with
  | some c => rfl
  | none => simp [he] at hres

section
variable {s t : State}

theorem firstError_of_ne_ok {f : ResultCode} (hf : f ≠ .ok) (c : ResultCode) : firstError f c = f := if_neg hf

/-- CLRERR is the one command that moves an FERR different from 0 (47_system.md R231). -/
theorem exec_ferr_of_ne_ok {i : Instr} (hferr : s.ferr ≠ .ok) (ht : exec i s = .next t) :
    t.ferr = s.ferr ∨ i = .clrerr ∧ t.ferr = .ok := by
  rw [exec_eq] at ht
  cases ht
  unfold commandResult
  cases commandError i s with
  | some c => exact .inl (firstError_of_ne_ok hferr c)
  | none => exact or_iff_not_imp_left.mpr commandEffect_ferr

theorem issue_ferr_of_ne_ok {w : Word} (hferr : s.ferr ≠ .ok) (ht : issue w s = .next t) :
    t.ferr = s.ferr ∨ w = 1#32 ∧ t.ferr = .ok := by
  obtain ⟨i, hw, e⟩ | ⟨-, e⟩ := issue_cases w s <;> rw [e] at ht
  · refine (exec_ferr_of_ne_ok (s := s.beginCommand w) hferr ht).imp_right fun ⟨hclrerr, hzero⟩ => ⟨?_, hzero⟩
    obtain ⟨-, hword⟩ := encodeOfDecode w i hw
    rw [← hword, hclrerr]
    rfl
  · cases ht
    exact .inl (firstError_of_ne_ok hferr _)

theorem writePolyWord_ferr_of_ne_ok (hferr : s.ferr ≠ .ok) (rel : Nat) (v : Word) :
    (writePolyWord rel v s).ferr = s.ferr := by
  obtain ⟨-, -, e⟩ | ⟨-, e⟩ := writePolyWord_cases rel v s <;> rw [e]
  · rfl
  · exact firstError_of_ne_ok hferr _

theorem hostRead_ferr_of_ne_ok (hferr : s.ferr ≠ .ok) (off : Nat) : (hostRead off s).ferr = s.ferr := by
  obtain ⟨v, -, e⟩ | ⟨-, e⟩ := hostRead_cases off s <;> rw [e]
  · rfl
  · exact firstError_of_ne_ok hferr _

theorem writeReg_ferr_of_ne_ok {reg : WindowReg} {rel : Nat} {v : Word} (hferr : s.ferr ≠ .ok) (hreg : reg ≠ .cmd)
    (ht : writeReg reg rel v s = .next t) : t.ferr = s.ferr := by
  cases reg <;> simp only [writeReg, Host.Outcome.next.injEq] at ht
  case cmd => exact absurd rfl hreg
  all_goals subst ht
  case st | key | m => simp
  case poly => exact writePolyWord_ferr_of_ne_ok hferr rel v
  all_goals exact firstError_of_ne_ok hferr _

/-- CMD is one word, at offset 0 (20_memory.md R52). -/
theorem off_eq_zero_of_locate_cmd {off : Nat} {r : Region} (hl : locate off = some r) (hreg : r.reg = .cmd) :
    off = 0 := by
  have hcmd : ∀ q ∈ registerMap, q.reg = .cmd → q.first + 4 * q.words = 4 := by decide
  obtain ⟨hr, haligned, -, -, hlt⟩ := locate_some hl
  have := hcmd r hr hreg
  omega

theorem hostWrite_ferr_of_ne_ok {off : Nat} {v : Word} (hferr : s.ferr ≠ .ok) (ht : hostWrite off v s = .next t) :
    t.ferr = s.ferr ∨ (off = 0 ∧ v = 1#32) ∧ t.ferr = .ok := by
  unfold hostWrite at ht
  split at ht
  case h_1 =>
    cases ht
    exact .inl (firstError_of_ne_ok hferr _)
  case h_2 r hl =>
    split at ht
    · by_cases hreg : r.reg = .cmd
      · rw [hreg] at ht
        have hoff := off_eq_zero_of_locate_cmd hl hreg
        exact (issue_ferr_of_ne_ok hferr ht).imp_right fun ⟨hword, hzero⟩ => ⟨⟨hoff, hword⟩, hzero⟩
      · exact .inl (writeReg_ferr_of_ne_ok hferr hreg ht)
    · cases ht
      exact .inl (firstError_of_ne_ok hferr _)

/-- An engine step is no error and no CLRERR. -/
theorem sequencerStep_ferr (ht : sequencerStep s = .next t) : t.ferr = s.ferr := by
  obtain ⟨u, hu, e⟩ | ⟨-, e⟩ := sequencerStep_cases s <;> rw [e] at ht <;> cases ht
  obtain ⟨-, -, -, ⟨b, ph, r, -, rfl⟩ | ⟨b, -, rfl⟩⟩ := engineStep_cases hu <;> rfl

end

/-- Settles O57: by the kinds of step; an error event finds FERR taken, and CLRERR's word is 1. -/
theorem firstErrorIsKept : Obligations.FirstErrorIsKept := by
  intro s t hferr ht
  rw [step] at ht
  obtain ⟨rest, hin, e⟩ | ⟨-, e⟩ | ⟨-, -, e⟩ | ⟨off, rest, -, -, e⟩ | ⟨off, v, rest, -, hin, e⟩ := advance_cases s
  all_goals rw [e] at ht
  · cases ht
    exact .inr ⟨rfl, .inl ⟨rest, hin⟩⟩
  · exact .inl (sequencerStep_ferr ht)
  · cases ht
    exact .inl rfl
  · cases ht
    exact .inl (hostRead_ferr_of_ne_ok (s := s.setInbox rest) hferr off)
  · refine (hostWrite_ferr_of_ne_ok (s := s.setInbox rest) hferr ht).imp_right ?_
    rintro ⟨⟨rfl, rfl⟩, hzero⟩
    exact ⟨hzero, .inr ⟨rest, hin⟩⟩

end Sys2Proof.Proofs
end

section
/-! Every command and every transaction ends (47_system.md R232, 70_reset_and_hazards.md R284): the engine steps a
running ENC or DEC has before it are counted, and each step takes one off the count. -/

namespace Sys2Proof.Machine

/-- The engine steps left before PHASE = IDLE, from a row of the table of 43_aes_engine.md R152: eleven from INITIAL,
one from FINAL; an encryption counts RND up to 10, a decryption down to 0. -/
def stepsLeft (s : State) : Nat :=
  match s.phase, s.mode with
  | .idle, _ => 0
  | .initial, _ => 11
  | .round, .encrypt => 11 - s.rnd.val
  | .round, .decrypt => s.rnd.val + 1
  | .final, _ => 1

section
variable {s t : State}

theorem stepsLeft_le (s : State) : stepsLeft s ≤ 11 := by
  unfold stepsLeft
  split <;> omega

/-- Only an idle sequencer has no step left. -/
theorem stepsLeft_eq_zero_iff : stepsLeft s = 0 ↔ s.phase = .idle := by
  unfold stepsLeft
  split <;> simp [*]
  omega

/-- Every row of the table moves one step nearer to IDLE. -/
theorem stepsLeft_of_engineStep (h : engineStep s = some t) : stepsLeft s = stepsLeft t + 1 := by
  have rounds : ∀ r : Fin 11, (1 ≤ r.val ∧ r.val ≤ 8 → 11 - r.val = 11 - (r + 1).val + 1) ∧
      (2 ≤ r.val ∧ r.val ≤ 9 → r.val + 1 = (r - 1).val + 1 + 1) := by decide
  obtain ⟨hencrypt, hdecrypt⟩ := rounds s.rnd
  unfold engineStep at h
  split at h <;> rename_i hp hm
  case h_1 => cases h
  all_goals split_ifs at h
  all_goals
    simp only [Option.some.injEq] at h
    simp only [← h, stepsLeft, hp, hm, State.setSequencer_phase, State.setSequencer_mode, State.setSequencer_rnd,
      State.complete_phase]
  · rfl
  · exact hencrypt ‹_›
  · simp [*]
  · rfl
  · exact hdecrypt ‹_›
  · simp [*]

end

end Sys2Proof.Machine

namespace Sys2Proof.Proofs

open Machine Laws Claims

theorem run_succ_of_step {s t : State} (h : step s = .next t) (n : Nat) :
    Host.Core.run core (n + 1) s = Host.Core.run core n t := by
  have h' : core.step s = .next t := h
  simp only [Host.Core.run, h']

/-- A step of a running sequencer leaves one step less, and the last one ends the command. -/
theorem step_of_stepsLeft {s : State} {n : Nat} (hlegal : SequencerLegal s) (hreset : ¬ ResetPresented s)
    (hn : stepsLeft s = n + 1) :
    ∃ t, step s = .next t ∧ SequencerLegal t ∧ stepsLeft t = n ∧ t.inbox = s.inbox ∧
      (n = 0 → t.phase = .idle ∧ t.res = .ok ∧ t.done = true) := by
  obtain ⟨t, ht⟩ := engineStep_isSome hlegal (mt stepsLeft_eq_zero_iff.mpr (by omega))
  have hleft : stepsLeft t = n := by have := stepsLeft_of_engineStep ht; omega
  obtain ⟨-, -, hlegal', hcases⟩ := engineStep_cases ht
  obtain ⟨hinbox, -⟩ := engineStep_keeps_host ht
  refine ⟨t, step_of_engineStep ht hreset, hlegal', hleft, hinbox, fun hzero => ?_⟩
  obtain ⟨b, ph, r, hph, rfl⟩ | ⟨b, -, rfl⟩ := hcases
  · exact absurd (stepsLeft_eq_zero_iff.mp (hleft.trans hzero)) hph
  · exact ⟨rfl, rfl, rfl⟩

/-- From a running sequencer, the steps left end the command, with the host's queue held. -/
theorem run_stepsLeft {s : State} {n : Nat} (hlegal : SequencerLegal s) (hreset : ¬ ResetPresented s)
    (hn : stepsLeft s = n + 1) :
    ∃ t : State, Host.Core.run core (n + 1) s = .next t ∧ t.phase = .idle ∧ t.res = .ok ∧ t.done = true ∧
      t.inbox = s.inbox := by
  induction n generalizing s with
  | zero =>
    obtain ⟨t, ht, -, -, hinbox, hend⟩ := step_of_stepsLeft hlegal hreset hn
    obtain ⟨hidle, hres, hdone⟩ := hend rfl
    exact ⟨t, run_succ_of_step ht 0, hidle, hres, hdone, hinbox⟩
  | succ n ih =>
    obtain ⟨u, hu, hlegal', hleft, hinbox, -⟩ := step_of_stepsLeft hlegal hreset hn
    rw [run_succ_of_step hu, ← hinbox]
    exact ih hlegal' (by rwa [ResetPresented, hinbox]) hleft

/-- Settles O8: the steps left of a running command are at most eleven. -/
theorem runningCommandEnds : Obligations.RunningCommandEnds := by
  intro s hlegal hrun hreset
  obtain ⟨n, hn⟩ := Nat.exists_eq_succ_of_ne_zero (mt stepsLeft_eq_zero_iff.mp hrun)
  exact ⟨n + 1, hn.symm.trans_le (stepsLeft_le s), run_stepsLeft hlegal hreset hn⟩

theorem hostWrite_next (off : Nat) (v : Word) (s : State) : ∃ t, hostWrite off v s = .next t := by
  obtain e | e | ⟨b, e⟩ | ⟨b, e⟩ | ⟨x, e⟩ | ⟨rel, e⟩ := hostWrite_cases off v s
  case inr.inl =>
    obtain ⟨i, -, e'⟩ | ⟨-, e'⟩ := issue_cases v s
    · exact ⟨_, e.trans (e'.trans (exec_eq i _))⟩
    · exact ⟨_, e.trans e'⟩
  all_goals exact ⟨_, e⟩

/-- Settles O55: a running sequencer in a row of its table has its engine step, and every other step ends by itself. -/
theorem everyCommandEnds : Obligations.EveryCommandEnds := by
  refine ⟨fun i s => ⟨_, exec_eq i s⟩, fun s hlegal => ?_⟩
  rw [step]
  obtain ⟨rest, -, e⟩ | ⟨hrun, e⟩ | ⟨-, -, e⟩ | ⟨off, rest, -, -, e⟩ | ⟨off, v, rest, -, -, e⟩ := advance_cases s
  case inr.inl =>
    obtain ⟨t, ht⟩ := engineStep_isSome hlegal hrun
    exact ⟨t, by rw [e, sequencerStep, ht]⟩
  case inr.inr.inr.inr =>
    rw [e]
    exact hostWrite_next off v _
  all_goals exact ⟨_, e⟩

end Sys2Proof.Proofs
end
